-- ==== Sys2Proof/Word.lean ====
section
/-!
DEFINITION. The two words the block moves: a byte of the wire or of a byte array, and a whole
32-bit register (00_scope.md R7, R8; 20_memory.md R87).
-/

namespace Sys2Proof

/-- A wire byte or an element of a byte array (R7, R87). -/
abbrev Byte := BitVec 8

/-- A register, a request word, a poll budget or a device address (R7, R86). -/
abbrev Word := BitVec 32

end Sys2Proof
end

