-- ==== Sys2Proof/Config.lean ====
section
/-!
DEFINITION. What an implementation fixes: the constants and the parameters of 00_scope.md R6, as
data that a run carries unchanged, and the one free value of the model.
-/

namespace Sys2Proof

/-- The acknowledgement byte (R6). -/
def Config.ack : Byte := 0x79

/-- The negative-acknowledgement byte (R6). -/
def Config.nack : Byte := 0x1F

/-- The handshake probe byte (R6, R120). -/
def Config.sync : Byte := 0x7F

/-- The opcode that selects the extended erase (R6, R141). -/
def Config.extEraseOpcode : Byte := 0x44

/-- The Device's flash-size register (R6, R92). -/
def Config.flashSizeAddr : Word := 0x1FFFF7E0

/-- The longest payload of `SEND_FRAME` (R6). -/
def Config.maxFrame : Nat := 257

/-- The largest count of `READ_BYTES` (R6). -/
def Config.maxRead : Nat := 256

/-- The longest page (R6). -/
def Config.pageMax : Nat := 256

/-- The size of the Command Table (R6). -/
def Config.ctCapacity : Nat := 16

/-- DESIGN CHOICE (log 13, safe). The value a 32-bit counter of the Sequencer takes when it is
counted up past 0xFFFFFFFF, which no rule states; nothing constrains it. -/
opaque Config.freeWord : Nat → Word

/-- The parameters of 00_scope.md R6 that an implementation chooses, and one of the model's own. -/
structure Config where
  /-- `LONG_POLLS`: the long acknowledgement budget; u32, because `ACKB` is (R46; log 2). -/
  longPolls : Word
  /-- `SHORT_POLLS`: the budget of the probe; u32 likewise (log 2). -/
  shortPolls : Word
  /-- `CMD_ATTEMPTS`: transmissions of a command pair, counting the first; at least 1 (R346). -/
  cmdAttempts : Nat
  /-- `READ_POLLS`: the per-byte budget of a read; `none` waits without bound. -/
  readPolls : Option Nat
  /-- DESIGN CHOICE (log 28, safe): the model's own. Whether a bounded read takes a byte that arrived in
  the last tick of its budget, as the pseudocode of 40_link_ops.md R168 does; 70_reset_and_hazards.md R391
  says that it does not, and no ruling settles it, so both readings are kept. -/
  readSeesLastTick : Bool
  /-- `SEQ_PRESENT`: whether the Sequencer exists (R66). -/
  seqPresent : Bool
  /-- `GET_OPCODE`: the opcode of GET (D23). -/
  getOpcode : Byte
  /-- Where `ID_BYTES` differs from its default `L ↦ L + 1` (D25; log 3): the first pair of a
  length byte decides. -/
  idBytesExceptions : List (Byte × Nat)
  /-- `STEP_RETRY_LIMIT`: attempts per step or page; at least 1 where given (R286, R346). -/
  stepRetryLimit : Option Nat
  /-- `PROBE_LIMIT`: probes per probe step; at least 1 where given (R287, R346). -/
  probeLimit : Option Nat
  /-- `RESTART_LIMIT`: restarts allowed; `some 0` fails the first (R297). -/
  restartLimit : Option Nat
  deriving DecidableEq, Repr

/-- The nominal values and defaults of R6. `CMD_ATTEMPTS` and `SEQ_PRESENT` are OPEN there: 1 and
true are DESIGN CHOICES (log 1, unsafe for a statement about these parameters alone). The last byte of a
read is looked for as R168 does (log 28). -/
def Config.nominal : Config where
  longPolls := 5000
  shortPolls := 1000
  cmdAttempts := 1
  readPolls := some 5000
  readSeesLastTick := true
  seqPresent := true
  getOpcode := 0x00
  idBytesExceptions := []
  stepRetryLimit := none
  probeLimit := none
  restartLimit := none

end Sys2Proof
end

