-- ==== Sys2Proof/Syntax.lean ====
section
/-!
DEFINITION. The link operations a client requests: one constructor for each row of
spec/opcode_table.json, with its operands as 30_encoding.md R110 to R112 give them.
-/

namespace Sys2Proof

/-- A link operation with its operands (30_encoding.md R111). -/
inductive Instr where
  /-- `PROBE` (R170): no operands. -/
  | probe
  /-- `SEND_CMD c` (R172): `c` is `REQ[15:8]`. -/
  | sendCmd (c : Byte)
  /-- `SEND_FRAME n` (R176): `n` is the 9-bit `REQ[24:16]`. -/
  | sendFrame (n : BitVec 9)
  /-- `WAIT_ACK` (R180): the budget is the register `BUDGET`. -/
  | waitAck
  /-- `READ_BYTE` (R183): no operands. -/
  | readByte
  /-- `READ_BYTES n` (R185): `n` is the 9-bit `REQ[24:16]`. -/
  | readBytes (n : BitVec 9)
  /-- `FLUSH_RX` (R187): no operands. -/
  | flushRx
  /-- `SET_EVEN_PARITY` (R188): no operands. -/
  | setEvenParity
  /-- `SEQ_START` (R281): `resume` is `REQ[8]`. -/
  | seqStart (resume : Bool)
  deriving DecidableEq, Repr

end Sys2Proof
end

