-- ==== Sys2Proof/WellFormed.lean ====
section
/-!
DEFINITION. Which operations a request word can ask for (30_encoding.md R111, R113): the length
ranges of the two operations that take one, and the presence of the Sequencer.
-/

namespace Sys2Proof

/-- A payload length `SEND_FRAME` takes: 1 to `MAX_FRAME` (R111). -/
abbrev Instr.frameLenOk (n : BitVec 9) : Prop := 1 ≤ n.toNat ∧ n.toNat ≤ Config.maxFrame

/-- A count `READ_BYTES` takes: 1 to `MAX_READ` (R111). -/
abbrev Instr.readLenOk (n : BitVec 9) : Prop := 1 ≤ n.toNat ∧ n.toNat ≤ Config.maxRead

/-- The operation is one that some request word asks for (R113, R114). -/
abbrev Instr.WellFormed (seqPresent : Bool) : Instr → Prop
  | .sendFrame n => Instr.frameLenOk n
  | .readBytes n => Instr.readLenOk n
  | .seqStart _ => seqPresent = true
  | .probe | .sendCmd _ | .waitAck | .readByte | .flushRx | .setEvenParity => True

end Sys2Proof
end

