-- ==== Sys2Proof/Decode.lean ====
section
/-!
DEFINITION. The request word of 30_encoding.md R110: its decoder `decodeReq` (R113), total on every
word and rejecting by name, and its encoder (R145).
-/

namespace Sys2Proof

/-- Why a request word is reserved (R113, R114). Every one finishes with BAD_REQUEST (R163). -/
inductive BadWord where
  /-- Bits 7:4 or 31:25 are not 0. -/
  | reservedBits
  /-- `OP` is 0x0 or 0xA to 0xF. -/
  | reservedOp
  /-- `BYTE` is not 0 (for `SEQ_START`, bits 15:9 are not 0) where the operation has no such operand. -/
  | unusedByte
  /-- `LEN` is not 0 where the operation takes no length. -/
  | unusedLen
  /-- `LEN` is outside the operation's range. -/
  | lenOutOfRange
  /-- `SEQ_START` where there is no Sequencer. -/
  | noSequencer
  deriving DecidableEq, Repr

/-- `REQ.OP`, bits 3:0 (R110). -/
def reqOp (v : Word) : BitVec 4 := v.extractLsb' 0 4

/-- The reserved bits 7:4 (R110). -/
def reqLow (v : Word) : BitVec 4 := v.extractLsb' 4 4

/-- `REQ.BYTE`, bits 15:8, unsigned (R110, R112). -/
def reqByte (v : Word) : Byte := v.extractLsb' 8 8

/-- `REQ.LEN`, bits 24:16, unsigned (R110, R112). -/
def reqLen (v : Word) : BitVec 9 := v.extractLsb' 16 9

/-- The reserved bits 31:25 (R110). -/
def reqHigh (v : Word) : BitVec 7 := v.extractLsb' 25 7

/-- The operation `i` where neither `BYTE` nor `LEN` is used. -/
def decodeBare (v : Word) (i : Instr) : Except BadWord Instr :=
  if reqByte v ≠ 0 then .error .unusedByte
  else if reqLen v ≠ 0 then .error .unusedLen
  else .ok i

/-- `SEND_CMD`: any `BYTE`, no `LEN`. -/
def decodeSendCmd (v : Word) : Except BadWord Instr :=
  if reqLen v ≠ 0 then .error .unusedLen else .ok (.sendCmd (reqByte v))

/-- `SEND_FRAME`: `LEN` from 1 to `MAX_FRAME`, no `BYTE`. -/
def decodeSendFrame (v : Word) : Except BadWord Instr :=
  if reqByte v ≠ 0 then .error .unusedByte
  else if Instr.frameLenOk (reqLen v) then .ok (.sendFrame (reqLen v))
  else .error .lenOutOfRange

/-- `READ_BYTES`: `LEN` from 1 to `MAX_READ`, no `BYTE`. -/
def decodeReadBytes (v : Word) : Except BadWord Instr :=
  if reqByte v ≠ 0 then .error .unusedByte
  else if Instr.readLenOk (reqLen v) then .ok (.readBytes (reqLen v))
  else .error .lenOutOfRange

/-- `SEQ_START`: bit 8 is `RESUME`, bits 15:9 and `LEN` are 0, and the Sequencer is present. -/
def decodeSeqStart (seqPresent : Bool) (v : Word) : Except BadWord Instr :=
  if seqPresent = false then .error .noSequencer
  else if (reqByte v).extractLsb' 1 7 ≠ 0 then .error .unusedByte
  else if reqLen v ≠ 0 then .error .unusedLen
  else .ok (.seqStart ((reqByte v).getLsbD 0))

/-- `decodeReq` of 30_encoding.md R113, by the operation codes of R111. -/
def decodeReq (seqPresent : Bool) (v : Word) : Except BadWord Instr :=
  if reqLow v ≠ 0 ∨ reqHigh v ≠ 0 then .error .reservedBits
  else
    match (reqOp v).toNat with
    | 0x1 => decodeBare v .probe
    | 0x2 => decodeSendCmd v
    | 0x3 => decodeSendFrame v
    | 0x4 => decodeBare v .waitAck
    | 0x5 => decodeBare v .readByte
    | 0x6 => decodeReadBytes v
    | 0x7 => decodeBare v .flushRx
    | 0x8 => decodeBare v .setEvenParity
    | 0x9 => decodeSeqStart seqPresent v
    | _ => .error .reservedOp

/-- What the decoder reads from a word of `nbits` bits, every bit above being 0, with the parameters
of `Config.nominal`. A request is one whole 32-bit word and has no byte order (R86, R110). -/
def decodeTableWord (nbits w : Nat) : Option Instr :=
  match decodeReq Config.nominal.seqPresent (BitVec.ofNat 32 (w % 2 ^ nbits)) with
  | .ok i => some i
  | .error _ => none

/-- A request word from its three fields, bits 31:25, `LEN`, `BYTE`, bits 7:4 and `OP` from the left;
the reserved bits are 0 (R110). -/
def requestWord (op : BitVec 4) (byte : Byte) (len : BitVec 9) : Word :=
  0#7 ++ len ++ byte ++ 0#4 ++ op

/-- The operation code of R111. -/
def Instr.opcode : Instr → BitVec 4
  | .probe => 0x1
  | .sendCmd _ => 0x2
  | .sendFrame _ => 0x3
  | .waitAck => 0x4
  | .readByte => 0x5
  | .readBytes _ => 0x6
  | .flushRx => 0x7
  | .setEvenParity => 0x8
  | .seqStart _ => 0x9

/-- The word that asks for an operation (R111, R145). -/
def encode : Instr → Word
  | .probe => requestWord 0x1 0 0
  | .sendCmd c => requestWord 0x2 c 0
  | .sendFrame n => requestWord 0x3 0 n
  | .waitAck => requestWord 0x4 0 0
  | .readByte => requestWord 0x5 0 0
  | .readBytes n => requestWord 0x6 0 n
  | .flushRx => requestWord 0x7 0 0
  | .setEvenParity => requestWord 0x8 0 0
  | .seqStart resume => requestWord 0x9 (if resume then 1 else 0) 0

end Sys2Proof
end

