-- ==== Sys2Proof/Machine/State.lean ====
section
/-!
DEFINITION. The state of the machine (10_state.md), one record per agent of 00_scope.md R5, the
environment's inputs as plain data, the reasons a step can stop, and the state after reset (R67).
-/

namespace Sys2Proof.Machine

/-- A byte array as the list of its written elements, (index, byte), in rising order of index. An
index that is not listed has no value: the contents nothing has written are unspecified, and no
rule gives a value to a read of them (10_state.md R42, R43, R63, R64, R67; log 9, safe). -/
abbrev Memory := List Host.Cell

/-- The reasons of the spec's `fault(reason)` (60_exceptions.md R345). A fault is no stop: it adds its
reason to `FAULTS` (R344; log 6). -/
inductive FaultReason where
  | badRegister
  | clientBusyWrite
  | txbufUnwritten
  | rxbufUnwritten
  | ctUnfilled
  | ctOverflow
  | idUnwritten
  | idBad
  | pageBad
  deriving DecidableEq, Repr

/-- The result codes of 60_exceptions.md R340; their numbers are `ResultCode.code`. -/
inductive ResultCode where
  | ok
  | nack
  | unexpected
  | timeout
  | badRequest
  deriving DecidableEq, Repr

/-- The outcome of an acknowledgement wait, `ACKOUT` (10_state.md R48). -/
inductive AckOutcome where
  | ok
  | nack
  | unexpected
  | timeout
  deriving DecidableEq, Repr

/-- The phase of the Link engine, `LSTATE` (R44). -/
inductive LState where
  | idle
  | tx
  | ackwait
  | rx
  deriving DecidableEq, Repr

/-- The channel's parity setting, `CHPAR` (R52). -/
inductive Parity where
  | even
  | other
  deriving DecidableEq, Repr

/-- The Link engine: the client-visible registers and arrays (R32 to R43) and the engine's own state
(R44 to R48). `STATUS.BUSY` is the view `lstate ≠ idle`. -/
structure Link where
  /-- `REQ`: the last request taken (R32; log 15). -/
  req : Word
  /-- `BUDGET` (R33). -/
  budget : Word
  /-- `STATUS.RESULT` (R36). -/
  result : ResultCode
  /-- `STATUS.PAR_EVEN` (R37). -/
  parEven : Bool
  /-- `STATUS.RV` (R38). -/
  rv : Bool
  /-- `STATUS.LAST_RX` (R39). -/
  lastRx : Byte
  /-- `STATUS.RXCNT` (R40). -/
  rxcnt : Nat
  /-- `TXBUF`; `TXW[i]` is whether index `i` is listed (R42). -/
  txbuf : Memory
  /-- `RXBUF` (R43). -/
  rxbuf : Memory
  /-- `LSTATE` (R44). -/
  lstate : LState
  /-- `OPR` (R45). -/
  opr : Option Instr
  /-- `TXQ` (R45). -/
  txq : List Byte
  /-- `TXPTR` (R45). -/
  txptr : Nat
  /-- `ACKB` (R46). -/
  ackb : Word
  /-- `POLLS` (R46). -/
  polls : Word
  /-- `ATTEMPTS` (R46). -/
  attempts : Nat
  /-- `RXN` (R47). -/
  rxn : Nat
  /-- `RXPOLLS` (R47). -/
  rxpolls : Nat
  /-- `ACKOUT` (R48). -/
  ackout : Option AckOutcome
  deriving DecidableEq, Repr

/-- The Channel and the history the block leaves on it (R50 to R52; 00_scope.md R11). -/
structure Channel where
  /-- `TXLOG`: every byte written, in order (R50). -/
  txlog : List Byte
  /-- `RXFIFO`: bytes received and not yet read, oldest first (R51). -/
  rxfifo : List Byte
  /-- `CHPAR` (R52). -/
  chpar : Parity
  /-- The model's own: how many `Tick` events there were (R11; log 19). -/
  ticks : Nat
  deriving DecidableEq, Repr

/-- `SEQ_STATUS.SSTATE` (R55); the numbers are `SessionState.code`. -/
inductive SessionState where
  | disconnected
  | handshaking
  | identified
  | flashSizeKnown
  | erased
  | programming
  | jumped
  | failed
  deriving DecidableEq, Repr

/-- `SEQ_STATUS.FAIL_STEP` (R56); the numbers are `FailStep.code`. -/
inductive FailStep where
  | none
  | probe
  | identify
  | flashSize
  | unprotect
  | erase
  | pageWrite
  | go
  | sourceError
  | restartLimit
  deriving DecidableEq, Repr

/-- The Sequencer's `STEP` (R65). -/
inductive SeqStep where
  | none
  | probe
  | identify
  | flashSize
  | unprotect
  | erase
  | program
  | go
  | done
  deriving DecidableEq, Repr

/-- An item of the page source (46_sequencer.md R283). -/
inductive PageItem where
  /-- `Page(b, n, d)`; `n` is the length of `d` (log 24). -/
  | page (base : Word) (data : List Byte)
  /-- `Start(a)`. -/
  | start (a : Word)
  /-- `End`. -/
  | endOfImage
  /-- `Error`. -/
  | error
  deriving DecidableEq, Repr

/-- A latched page: `PBASE` and `PDATA`; `PLEN` is the length of `data` (R65; log 24). -/
structure PageLatch where
  base : Word
  data : List Byte
  deriving DecidableEq, Repr

/-- The Sequencer (R54 to R65). -/
structure Session where
  /-- `SEQ_STATUS.SSTATE` (R55). -/
  sstate : SessionState
  /-- `SEQ_STATUS.SBUSY` (R54). -/
  sbusy : Bool
  /-- `SEQ_STATUS.SDONE` (R54). -/
  sdone : Bool
  /-- `SEQ_STATUS.START_VALID` (R54). -/
  startValid : Bool
  /-- `SEQ_STATUS.GO_ISSUED` (R54). -/
  goIssued : Bool
  /-- `SEQ_STATUS.FAIL_STEP` (R56). -/
  failStep : FailStep
  /-- `SEQ_STATUS.FAIL_RESULT` (R54). -/
  failResult : ResultCode
  /-- `SEQ_STATUS.FSIZE_VALID` (R54). -/
  fsizeValid : Bool
  /-- `FAIL_ADDR` (R57). -/
  failAddr : Word
  /-- `FLASH_KB` bits 15:0 (R58). -/
  flashKb : BitVec 16
  /-- `START_ADDR` (R59). -/
  startAddr : Word
  /-- `CT_VALID` bits 15:0 (R60). -/
  ctValid : BitVec 16
  /-- `ID_LEN` bits 7:0 (R61). -/
  idLen : Byte
  /-- `TRIES` (R62). -/
  tries : Word
  /-- `RESTARTS` (R62). -/
  restarts : Word
  /-- `CT`, the Command Table (R63). -/
  ct : Memory
  /-- `ID`, the device ID (R64). -/
  ident : Memory
  /-- `STEP` (R65). -/
  step : SeqStep
  /-- `SUB`: the index of the next link operation inside the step's procedure (R65). -/
  sub : Nat
  /-- `RESUME` (R65). -/
  resume : Bool
  /-- `PROBES` (R65). -/
  probes : Nat
  /-- The page latch; `PVALID` is whether there is one (R65). -/
  latch : Option PageLatch
  deriving DecidableEq, Repr

/-- The byte arrays of 10_state.md R32. -/
inductive Arr where
  | txbuf
  | rxbuf
  | ct
  | ident
  deriving DecidableEq, Repr

/-- One client access to the port (R32). -/
inductive Access where
  /-- `RegRead(num)`. -/
  | regRead (num : Nat)
  /-- `RegWrite(num, v)`. -/
  | regWrite (num : Nat) (v : Word)
  /-- `ArrRead(array, i)`. -/
  | arrRead (a : Arr) (i : Nat)
  /-- `ArrWrite(array, i, b)`. -/
  | arrWrite (a : Arr) (i : Nat) (b : Byte)
  deriving DecidableEq, Repr

/-- What a client read returns (R32). -/
inductive PortValue where
  | word (v : Word)
  | byte (b : Byte)
  deriving DecidableEq, Repr

/-- One turn of the environment (00_scope.md R5; log 4, safe): which agent moves next. -/
inductive Turn where
  /-- The block moves: the engine while it is busy, else the Sequencer while a session runs. -/
  | run
  /-- The Device appends a byte to `RXFIFO` (R51, R53). -/
  | device (b : Byte)
  /-- The page source makes one more item available (46_sequencer.md R283). -/
  | source (it : PageItem)
  /-- The client makes one access (R32). -/
  | client (a : Access)
  /-- The client's `WAITIDLE`: the block moves until `STATUS.BUSY` reads 0 (30_encoding.md R145; log 23). -/
  | waitIdle
  /-- The reset event (70_reset_and_hazards.md R380). -/
  | reset
  deriving DecidableEq, Repr

/-- The whole state. -/
structure State where
  /-- The parameters, which no step changes (00_scope.md R6). -/
  cfg : Config
  /-- The Link engine. -/
  link : Link
  /-- The Channel. -/
  chan : Channel
  /-- The Sequencer. -/
  seq : Session
  /-- `FAULTS`, a set: each reason at most once (R49; log 25). -/
  faults : List FaultReason
  /-- The page source's items not yet pulled, by this session or a later one (46_sequencer.md R283; log 29). -/
  source : List PageItem
  /-- The model's own: the environment's next turns; with none the block moves (log 4). -/
  turns : List Turn
  /-- The model's own: what the client's reads returned, oldest first (log 19). -/
  portOut : List PortValue
  /-- The model's own: how many free values were used (log 13); no statement rests on it. -/
  freeCount : Nat
  deriving DecidableEq, Repr

/-- Where a step stops. No rule of the spec stops the machine; each of these stands in for a state of
the engine or the Sequencer that no rule describes and no run from reset reaches (log 11, safe). -/
inductive Fault where
  /-- Raised by the transmit step (R164) where `TXPTR` is past the end of `TXQ`. Safe. -/
  | txPointerPastEnd
  /-- Raised by the receive step (R168) where `RXCNT` is past the end of `RXBUF`. Safe. -/
  | rxbufPastEnd
  /-- Raised by the Sequencer where (`STEP`, `SUB`) is no position of a step procedure. Safe. -/
  | noSuchPosition
  deriving DecidableEq, Repr

/-- Why a step is refused. -/
inductive Refusal where
  /-- Raised by an arm of `exec` whose instruction has no meaning yet. Safe. -/
  | notModelled (mnemonic : String)
  /-- Raised by `step` in every state whose parameters R346 excludes: `CMD_ATTEMPTS = 0`,
  `STEP_RETRY_LIMIT = some 0` or `PROBE_LIMIT = some 0`. Safe. -/
  | illegalParameter
  deriving DecidableEq, Repr

/-- The Link engine after reset (R67). -/
def Link.reset : Link where
  req := 0
  budget := 0
  result := .ok
  parEven := false
  rv := false
  lastRx := 0
  rxcnt := 0
  txbuf := []
  rxbuf := []
  lstate := .idle
  opr := none
  txq := []
  txptr := 0
  ackb := 0
  polls := 0
  attempts := 0
  rxn := 0
  rxpolls := 0
  ackout := none

/-- The Sequencer after reset (R67). -/
def Session.reset : Session where
  sstate := .disconnected
  sbusy := false
  sdone := false
  startValid := false
  goIssued := false
  failStep := .none
  failResult := .ok
  fsizeValid := false
  failAddr := 0
  flashKb := 0
  startAddr := 0
  ctValid := 0
  idLen := 0
  tries := 0
  restarts := 0
  ct := []
  ident := []
  step := .none
  sub := 0
  resume := false
  probes := 0
  latch := none

/-- The machine at power-on (R67, R380): the registers and the internal state as R67 gives them, no
history. The receive FIFO, the parity, the page source and the turns are free inputs of a run; here
they are empty and OTHER (DESIGN CHOICE, log 5, unsafe for a statement about this state alone). -/
def State.reset : State where
  cfg := Config.nominal
  link := Link.reset
  chan := { txlog := [], rxfifo := [], chpar := .other, ticks := 0 }
  seq := Session.reset
  faults := []
  source := []
  turns := []
  portOut := []
  freeCount := 0

end Sys2Proof.Machine
end

