-- ==== Sys2Proof/Machine/Ops.lean ====
section
/-!
DEFINITION. The named operations the rules are written in: the byte arrays, the channel primitives of
00_scope.md R11, `fault(reason)` and `finish(code)` of R12, and the accepting and resolving
operations of 40_link_ops.md R163 and R167.
-/

namespace Sys2Proof.Machine

/-! ### Byte arrays -/

/-- The value of element `a`; none where nothing has written it. -/
def Memory.read : Memory → Nat → Option Byte
  | [], _ => none
  | (c, x) :: m, a => if a = c then some x else Memory.read m a

/-- Element `a` written, the canonical form kept. -/
def Memory.write : Memory → Nat → Byte → Memory
  | [], a, b => [(a, b)]
  | (c, x) :: m, a, b =>
    if a < c then (a, b) :: (c, x) :: m
    else if a = c then (a, b) :: m
    else (c, x) :: Memory.write m a b

/-- The bytes `bs` written from element `a` on, in index order. -/
def Memory.writeList (m : Memory) (a : Nat) : List Byte → Memory
  | [] => m
  | b :: bs => Memory.writeList (m.write a b) (a + 1) bs

/-- The `n` elements from `a` on; none where one of them has no value. -/
def Memory.readRange (m : Memory) (a : Nat) : Nat → Option (List Byte)
  | 0 => some []
  | n + 1 =>
    match m.read a, Memory.readRange m (a + 1) n with
    | some b, some bs => some (b :: bs)
    | _, _ => none

/-- The canonical form: indices strictly rising. An unlisted index has no value, so no entry can
repeat what an unlisted one reads as. -/
abbrev Memory.wf (m : Memory) : Prop := m.Pairwise fun x y => x.1 < y.1

/-- Every listed index is inside an array of `size` elements (20_memory.md R80). -/
abbrev Memory.within (m : Memory) (size : Nat) : Prop := ∀ c ∈ m, c.1 < size

/-- The number of elements of an array (10_state.md R32, 20_memory.md R80). -/
def Arr.size : Arr → Nat
  | .txbuf => 257
  | .rxbuf => 256
  | .ct => 16
  | .ident => 256

/-! ### Faults and completion -/

/-- `fault(reason)` (60_exceptions.md R344): the reason joins the sticky set `FAULTS` and nothing else
happens. This is the one way a rule's exception is taken; the block has no trap entry and no
return (R352, R353). -/
def State.raise (r : FaultReason) (s : State) : State :=
  if r ∈ s.faults then s else { s with faults := s.faults ++ [r] }

/-- `finish(code)` (40_link_ops.md R167). -/
def State.finish (code : ResultCode) (s : State) : State :=
  { s with link := { s.link with result := code, rv := true, lstate := .idle, ackout := none } }

/-- A reserved request word `v` (R163, R113): finished with `BAD_REQUEST`, nothing sent. -/
def State.badRequest (v : Word) (s : State) : State :=
  ({ s with link := { s.link with req := v } }).finish .badRequest

/-- The accepting step latches the operation (R163; `REQ` log 15). -/
def State.latchRequest (i : Instr) (s : State) : State :=
  { s with link := { s.link with req := encode i, opr := some i } }

/-- A request meets the engine: it is taken in the phase `IDLE` only (R163); anywhere else it is
`fault(CLIENT_BUSY_WRITE)` (R348; log 21). -/
def whenIdle (s : State) (accepted : State) : Host.Outcome State Fault Refusal :=
  if s.link.lstate = .idle then .next accepted else .next (s.raise .clientBusyWrite)

/-! ### Channel primitives (00_scope.md R11) -/

/-- `ChanWrite(b)`. -/
def State.chanWrite (b : Byte) (s : State) : State :=
  { s with chan := { s.chan with txlog := s.chan.txlog ++ [b] } }

/-- `ChanRead()` with the byte it returns; none where `ChanAvail()` is false. -/
def State.chanRead (s : State) : Option (Byte × State) :=
  match s.chan.rxfifo with
  | [] => none
  | b :: rest => some (b, { s with chan := { s.chan with rxfifo := rest } })

/-- `ChanFlush()`. -/
def State.chanFlush (s : State) : State :=
  { s with chan := { s.chan with rxfifo := [] } }

/-- `ChanSetEvenParity()`. -/
def State.chanSetEvenParity (s : State) : State :=
  { s with chan := { s.chan with chpar := .even } }

/-- `Tick()`; the Device's bytes are turns of its own. -/
def State.tick (s : State) : State :=
  { s with chan := { s.chan with ticks := s.chan.ticks + 1 } }

/-- The Device appends a byte (10_state.md R51). -/
def State.deviceByte (b : Byte) (s : State) : State :=
  { s with chan := { s.chan with rxfifo := s.chan.rxfifo ++ [b] } }

/-! ### Phases of the engine -/

/-- The accepting step of an operation that sends `bytes` (R163). -/
def State.startTx (bytes : List Byte) (budget : Word) (attempts : Nat) (s : State) : State :=
  { s with
    link := { s.link with
      txq := bytes, ackb := budget, attempts := attempts, txptr := 0, lstate := .tx } }

/-- The accepting step of `WAIT_ACK` (R163). -/
def State.startWait (budget : Word) (s : State) : State :=
  { s with
    link := { s.link with polls := budget, attempts := 1, txq := [], lstate := .ackwait } }

/-- The accepting step of a read of `n` bytes (R163). -/
def State.startRx (n polls : Nat) (s : State) : State :=
  { s with link := { s.link with rxn := n, rxcnt := 0, rxpolls := polls, lstate := .rx } }

/-- The re-issue branch of `resolve()` (R167): the same `TXQ` again, nothing flushed. `ACKOUT` exists
only until the re-send (10_state.md R48; DEDUCED, log 14, safe). -/
def State.reissue (s : State) : State :=
  { s with
    link := { s.link with
      attempts := s.link.attempts - 1, txptr := 0, lstate := .tx, ackout := none } }

/-- The value of a counter counted up, and the state after it. A u32 at 0xFFFFFFFF takes a free value:
no rule states the sum (DESIGN CHOICE, log 13, safe). -/
def State.countUp (w : Word) (s : State) : Word × State :=
  if w = 0xFFFFFFFF then (Config.freeWord s.freeCount, { s with freeCount := s.freeCount + 1 })
  else (w + 1, s)

/-! ### Reset and refusal -/

/-- The reset event (70_reset_and_hazards.md R380, R381): the registers and internal state of the block
as R67 gives them; the channel, the history, `FAULTS` and the environment stay. -/
def State.resetEvent (s : State) : State :=
  { s with link := Link.reset, seq := Session.reset }

/-- The parameters R346 admits. -/
abbrev legalParameters (c : Config) : Prop :=
  c.cmdAttempts ≠ 0 ∧ c.stepRetryLimit ≠ some 0 ∧ c.probeLimit ≠ some 0

end Sys2Proof.Machine
end

