-- ==== Sys2Proof/Machine/Operands.lean ====
section
/-!
DEFINITION. The operand forms: the wire encodings of 30_encoding.md section 2 with the byte order of
20_memory.md section 2 and the checksum of 40_link_ops.md R160, and the operands an operation takes
from the state and the parameters.
-/

namespace Sys2Proof.Machine

/-- `foldxor(init, p)` (00_scope.md R9). -/
def foldxor (init : Byte) : List Byte → Byte
  | [] => init
  | b :: p => foldxor (init ^^^ b) p

/-- The checksum (40_link_ops.md R160): one byte takes its complement, more take their XOR. The empty
payload has none in the spec and none is computed: every use is on a payload of one or more. -/
def cks : List Byte → Byte
  | [b] => 0xFF ^^^ b
  | p => foldxor 0x00 p

/-- `encProbe` (30_encoding.md R120). -/
def encProbe : List Byte := [Config.sync]

/-- `encCmd(c)` (R121). -/
def encCmd (c : Byte) : List Byte := [c, 0xFF ^^^ c]

/-- `encFrame(p)` (R122). -/
def encFrame (p : List Byte) : List Byte := p ++ [cks p]

/-- `encAddr(a)`: most significant byte first (20_memory.md R83). -/
def encAddr (a : Word) : List Byte :=
  [a.extractLsb' 24 8, a.extractLsb' 16 8, a.extractLsb' 8 8, a.extractLsb' 0 8]

/-- `encAddrFrame(a)` (30_encoding.md R123). -/
def encAddrFrame (a : Word) : List Byte := encFrame (encAddr a)

/-- `lenByte(n)`: the count minus one, for `1 ≤ n ≤ 256` (20_memory.md R85). No rule gives a length byte to
another count, and the Sequencer sends none; where a client program asks for one (`RLEN 0`, `WDATA []`,
more than 256) the model takes 00 for 0 and the low eight bits of the count minus one above 256
(DESIGN CHOICE, log 32, unsafe). -/
def lenByte (n : Nat) : Byte := BitVec.ofNat 8 (n - 1)

/-- The payload of a write-data frame (30_encoding.md R124). -/
def writeDataPayload (d : List Byte) : List Byte := lenByte d.length :: d

/-- `encWriteData(d)`, for 1 to 256 bytes (R124). -/
def encWriteData (d : List Byte) : List Byte := encFrame (writeDataPayload d)

/-- `encReadLen(n)` (R125). -/
def encReadLen (n : Nat) : List Byte := encFrame [lenByte n]

/-- The payload of the extended mass erase (R126). -/
def massErasePayload : List Byte := [0xFF, 0xFF]

/-- The payload of the legacy global erase (R127). -/
def globalErasePayload : List Byte := [0xFF]

/-- `flashKB(r0, r1)`: least significant byte first (20_memory.md R84). -/
def flashKB (r0 r1 : Byte) : BitVec 16 := r0.zeroExtend 16 ||| (r1.zeroExtend 16 <<< 8)

/-- `validFrame(w)`, the check of a receiver that checks (40_link_ops.md R162); the block never
applies it. -/
def validFrame (w : List Byte) : Bool :=
  decide (2 ≤ w.length) && decide (w.getLast? = some (cks w.dropLast))

/-- `ID_BYTES(L)` (00_scope.md R6; D25). -/
def idBytesOf (exceptions : List (Byte × Nat)) (l : Byte) : Nat :=
  match exceptions with
  | [] => l.toNat + 1
  | (k, n) :: rest => if l = k then n else idBytesOf rest l

/-- `ID_BYTES` of the configuration. -/
def idBytes (c : Config) (l : Byte) : Nat := idBytesOf c.idBytesExceptions l

/-- `rxBudget()` (40_link_ops.md R163). -/
def rxBudget (c : Config) : Nat :=
  match c.readPolls with
  | some k => k
  | none => 0

/-- The payload `TXBUF[0..n)` of `SEND_FRAME`; none where some `TXW[i]` is false (R163). -/
def State.txPayload (n : Nat) (s : State) : Option (List Byte) := s.link.txbuf.readRange 0 n

end Sys2Proof.Machine
end

