-- ==== Sys2Proof/Machine/Flags.lean ====
section
/-!
DEFINITION. The status computations: the response decoder (40_link_ops.md R161), the numbers of the
codes and the two status registers as words (10_state.md R34, R54 to R56; 60_exceptions.md R340).
-/

namespace Sys2Proof.Machine

/-- `classify(b)` (40_link_ops.md R161). -/
def classify (b : Byte) : AckOutcome :=
  if b = Config.ack then .ok else if b = Config.nack then .nack else .unexpected

/-- The result code of a wait's outcome (R167). -/
def AckOutcome.result : AckOutcome → ResultCode
  | .ok => .ok
  | .nack => .nack
  | .unexpected => .unexpected
  | .timeout => .timeout

/-- The number of a result code (60_exceptions.md R340). -/
def ResultCode.code : ResultCode → BitVec 3
  | .ok => 0
  | .nack => 1
  | .unexpected => 2
  | .timeout => 3
  | .badRequest => 4

/-- The number of a session state (10_state.md R55). -/
def SessionState.code : SessionState → BitVec 4
  | .disconnected => 0
  | .handshaking => 1
  | .identified => 2
  | .flashSizeKnown => 3
  | .erased => 4
  | .programming => 5
  | .jumped => 6
  | .failed => 7

/-- The number of a failed step (R56). -/
def FailStep.code : FailStep → BitVec 4
  | .none => 0
  | .probe => 1
  | .identify => 2
  | .flashSize => 3
  | .unprotect => 4
  | .erase => 5
  | .pageWrite => 6
  | .go => 7
  | .sourceError => 8
  | .restartLimit => 9

/-- `STATUS.BUSY` (R34, R44). -/
def State.busy (s : State) : Bool := decide (s.link.lstate ≠ .idle)

/-- The client's writes fault: the engine is busy or a session runs (R35, 46_sequencer.md R280). -/
def State.clientLocked (s : State) : Bool := s.busy || s.seq.sbusy

/-- The source's boolean `RESULT == OK` (60_exceptions.md R341). -/
def State.resultOk (s : State) : Bool := decide (s.link.result = .ok)

/-- `STATUS` as a word (10_state.md R34); the reserved bits read 0 (R41). -/
def statusWord (s : State) : Word :=
  BitVec.ofNat 32
    (s.busy.toNat
      + s.link.result.code.toNat * 2 ^ 1
      + s.link.parEven.toNat * 2 ^ 4
      + s.link.rv.toNat * 2 ^ 5
      + s.link.lastRx.toNat * 2 ^ 8
      + (s.link.rxcnt % 2 ^ 9) * 2 ^ 16)

/-- `SEQ_STATUS` as a word (R54); the reserved bits read 0 (R41). -/
def seqStatusWord (s : State) : Word :=
  BitVec.ofNat 32
    (s.seq.sstate.code.toNat
      + s.seq.sbusy.toNat * 2 ^ 4
      + s.seq.sdone.toNat * 2 ^ 5
      + s.seq.startValid.toNat * 2 ^ 6
      + s.seq.goIssued.toNat * 2 ^ 7
      + s.seq.failStep.code.toNat * 2 ^ 8
      + s.seq.failResult.code.toNat * 2 ^ 12
      + s.seq.fsizeValid.toNat * 2 ^ 15)

/-- The identify step of the current session has completed (R64): the session is past
`HANDSHAKING`, or it failed in a step that comes after (DEDUCED, log 16, unsafe). -/
def State.identified (s : State) : Bool :=
  match s.seq.sstate with
  | .disconnected | .handshaking => false
  | .identified | .flashSizeKnown | .erased | .programming | .jumped => true
  | .failed =>
    match s.seq.failStep with
    | .none | .probe | .identify => false
    | .flashSize | .unprotect | .erase | .pageWrite | .go | .sourceError | .restartLimit => true

end Sys2Proof.Machine
end

