-- ==== Sys2Proof/Machine/Engine.lean ====
section
/-!
DEFINITION. The Link engine's steps while an operation is in progress: transmit (40_link_ops.md R164),
acknowledgement wait (R165, R166), resolve (R167) and receive (R168, 70_reset_and_hazards.md R391). Exactly one is enabled in each
busy state (R169).
-/

namespace Sys2Proof.Machine

/-- `TXPTR` past the byte just sent; past the last one the wait starts with the budget `ACKB` (R164). -/
def State.afterSent (s : State) : State :=
  if s.link.txptr + 1 = s.link.txq.length then
    { s with
      link := { s.link with txptr := s.link.txptr + 1, polls := s.link.ackb, lstate := .ackwait } }
  else { s with link := { s.link with txptr := s.link.txptr + 1 } }

/-- The transmit step (R164). -/
def txStep (s : State) : Host.Outcome State Fault Refusal :=
  match s.link.txq[s.link.txptr]? with
  | some b => .next (s.chanWrite b).afterSent
  | none => .fault .txPointerPastEnd

/-- `resolve()` (R167) of the outcome in `ACKOUT`. -/
def State.resolve (s : State) : State :=
  match s.link.ackout with
  | none => s
  | some .ok => s.finish .ok
  | some o => if 1 < s.link.attempts then s.reissue else s.finish o.result

/-- The end of a wait with the outcome `o` (R165, R166). -/
def State.endWait (o : AckOutcome) (s : State) : State :=
  ({ s with link := { s.link with ackout := some o } }).resolve

/-- `STATUS.LAST_RX ← b` (10_state.md R39). -/
def State.setLastRx (b : Byte) (s : State) : State :=
  { s with link := { s.link with lastRx := b } }

/-- `POLLS ← POLLS - 1` (R166). -/
def State.spendPoll (s : State) : State :=
  { s with link := { s.link with polls := s.link.polls - 1 } }

/-- One poll of an acknowledgement wait: the budget used up (R166), a byte taken (R165), or one tick
(R166). -/
def ackStep (s : State) : State :=
  if s.link.polls = 0 then s.endWait .timeout
  else
    match s.chanRead with
    | some (b, t) => (t.setLastRx b).endWait (classify b)
    | none => s.tick.spendPoll

/-- A byte taken is stored and the per-byte budget starts again (R168). -/
def State.storeRx (b : Byte) (s : State) : State :=
  { s with
    link := { s.link with
      rxbuf := s.link.rxbuf.write s.link.rxcnt b
      rxcnt := s.link.rxcnt + 1
      rxpolls := rxBudget s.cfg } }

/-- `RXPOLLS ← RXPOLLS - 1` where reads are bounded (R168). -/
def State.spendRxPoll (s : State) : State :=
  if s.cfg.readPolls.isSome then { s with link := { s.link with rxpolls := s.link.rxpolls - 1 } } else s

/-- The read is complete once `RXCNT = RXN` (R168). -/
def State.afterStored (s : State) : State :=
  if s.link.rxcnt = s.link.rxn then s.finish .ok else s

/-- The last tick of a bounded read's per-byte budget has passed, and a byte that arrived in it is not
seen: 70_reset_and_hazards.md R391, where the configuration follows it against R168 (DESIGN CHOICE,
log 28, safe). A budget of 0 has no last tick. -/
abbrev State.lastTickUnseen (s : State) : Prop :=
  s.cfg.readSeesLastTick = false ∧ rxBudget s.cfg ≠ 0 ∧ s.link.rxpolls = 0

/-- The receive step. R168 looks at the FIFO before the budget, so a byte that arrived in the last tick
is taken; R391 says that it stays and the read times out. The two contradict each other and no ruling
settles it: `Config.readSeesLastTick` chooses (DESIGN CHOICE, log 28, safe). -/
def rxStep (s : State) : Host.Outcome State Fault Refusal :=
  if s.lastTickUnseen then .next (s.finish .timeout)
  else
    match s.chanRead with
    | some (b, t) =>
      if s.link.rxcnt < Arr.rxbuf.size then .next (t.storeRx b).afterStored
      else .fault .rxbufPastEnd
    | none =>
      if s.cfg.readPolls.isSome ∧ s.link.rxpolls = 0 then .next (s.finish .timeout)
      else .next s.tick.spendRxPoll

/-- The one step the engine's phase enables (R169); none while idle. -/
def engineStep (s : State) : Host.Outcome State Fault Refusal :=
  match s.link.lstate with
  | .idle => .next s
  | .tx => txStep s
  | .ackwait => .next (ackStep s)
  | .rx => rxStep s

end Sys2Proof.Machine
end

