-- ==== Sys2Proof/Machine/Line.lean ====
section
/-!
DEFINITION. The operations on the channel that finish in the accepting step: FLUSH_RX
(40_link_ops.md R187) and SET_EVEN_PARITY (R188).
-/

namespace Sys2Proof.Machine

/-- `FLUSH_RX` (R163, R187). -/
def execFlushRx (s : State) : Host.Outcome State Fault Refusal :=
  whenIdle s ((s.latchRequest .flushRx).chanFlush.finish .ok)

/-- `STATUS.PAR_EVEN ← 1` (R188). -/
def State.setParEven (s : State) : State := { s with link := { s.link with parEven := true } }

/-- `SET_EVEN_PARITY` (R163, R188). -/
def execSetEvenParity (s : State) : Host.Outcome State Fault Refusal :=
  whenIdle s ((s.latchRequest .setEvenParity).chanSetEvenParity.setParEven.finish .ok)

end Sys2Proof.Machine
end

