-- ==== Sys2Proof/Machine/Receive.lean ====
section
/-!
DEFINITION. The operations that only receive: WAIT_ACK (40_link_ops.md R180), READ_BYTE (R183) and
READ_BYTES (R185). Each meaning is the accepting step of R163; the polls that follow are Engine.lean's.
-/

namespace Sys2Proof.Machine

/-- `WAIT_ACK` (R163, R180): the budget is `BUDGET`, nothing is sent. -/
def execWaitAck (s : State) : Host.Outcome State Fault Refusal :=
  whenIdle s ((s.latchRequest .waitAck).startWait s.link.budget)

/-- `READ_BYTE` (R163, R183). -/
def execReadByte (s : State) : Host.Outcome State Fault Refusal :=
  whenIdle s ((s.latchRequest .readByte).startRx 1 (rxBudget s.cfg))

/-- `READ_BYTES n` (R163, R185); a count outside 1 to 256 is `BAD_REQUEST`. -/
def execReadBytes (n : BitVec 9) (s : State) : Host.Outcome State Fault Refusal :=
  whenIdle s
    (if Instr.readLenOk n then (s.latchRequest (.readBytes n)).startRx n.toNat (rxBudget s.cfg)
    else s.badRequest (encode (.readBytes n)))

end Sys2Proof.Machine
end

