-- ==== Sys2Proof/Machine/SessionStart.lean ====
section
/-!
DEFINITION. The session-start operation SEQ_START (46_sequencer.md R281).
-/

namespace Sys2Proof.Machine

/-- The Sequencer as the accepting step of `SEQ_START` leaves it (R281): the results of an earlier
session cleared, `CT` and `ID` kept, and the first step chosen by `RESUME`. -/
def Session.start (resume : Bool) (q : Session) : Session :=
  { q with
    resume := resume
    sstate := if resume then .handshaking else .disconnected
    sbusy := true
    sdone := false
    startValid := false
    goIssued := false
    failStep := .none
    failResult := .ok
    fsizeValid := false
    failAddr := 0
    flashKb := 0
    startAddr := 0
    ctValid := 0
    idLen := 0
    tries := 0
    restarts := 0
    probes := 0
    latch := none
    sub := 0
    step := if resume then .identify else .probe }

/-- The session started in the state (R281). -/
def State.startSession (resume : Bool) (s : State) : State :=
  { s with seq := s.seq.start resume }

/-- `SEQ_START` (R281): accepted when the engine is idle and no session runs, else
`fault(CLIENT_BUSY_WRITE)`; reserved where there is no Sequencer (R114). -/
def execSeqStart (resume : Bool) (s : State) : Host.Outcome State Fault Refusal :=
  whenIdle s
    (if s.seq.sbusy then s.raise .clientBusyWrite
    else if s.cfg.seqPresent then
      ((s.latchRequest (.seqStart resume)).startSession resume).finish .ok
    else s.badRequest (encode (.seqStart resume)))

end Sys2Proof.Machine
end

