-- ==== Sys2Proof/Machine/Transmit.lean ====
section
/-!
DEFINITION. The operations that send: PROBE (40_link_ops.md R170), SEND_CMD (R172) and SEND_FRAME (R176).
Each meaning is the accepting step of R163; the transmit and wait steps that follow are Engine.lean's.
-/

namespace Sys2Proof.Machine

/-- `PROBE` (R163, R170): `7F` alone, the short budget, one attempt. -/
def execProbe (s : State) : Host.Outcome State Fault Refusal :=
  whenIdle s ((s.latchRequest .probe).startTx encProbe s.cfg.shortPolls 1)

/-- `SEND_CMD c` (R163, R172): the command pair, the long budget, `CMD_ATTEMPTS` attempts. -/
def execSendCmd (c : Byte) (s : State) : Host.Outcome State Fault Refusal :=
  whenIdle s ((s.latchRequest (.sendCmd c)).startTx (encCmd c) s.cfg.longPolls s.cfg.cmdAttempts)

/-- `SEND_FRAME n` (R163, R176) in the order of R348: a length outside 1 to 257 is `BAD_REQUEST`, an
unwritten byte is `fault(TXBUF_UNWRITTEN)`, else the frame, the long budget and one attempt. The
pseudocode of R163 writes `OPR` before that fault and 60_exceptions.md R344 gives a faulted write no other
effect; the model follows R344 and leaves `OPR` as it was (DEDUCED, log 30, safe). -/
def execSendFrame (n : BitVec 9) (s : State) : Host.Outcome State Fault Refusal :=
  whenIdle s
    (if Instr.frameLenOk n then
      match s.txPayload n.toNat with
      | some p => (s.latchRequest (.sendFrame n)).startTx (encFrame p) s.cfg.longPolls 1
      | none => s.raise .txbufUnwritten
    else s.badRequest (encode (.sendFrame n)))

end Sys2Proof.Machine
end

