-- ==== Sys2Proof/Machine/Dispatch.lean ====
section
/-!
DEFINITION. One arm per link operation: the accepting step of 40_link_ops.md R163.
-/

namespace Sys2Proof.Machine

def exec (i : Instr) (s : State) : Host.Outcome State Fault Refusal :=
  match i with
  | .probe => Sys2Proof.Machine.execProbe s
  | .sendCmd c => Sys2Proof.Machine.execSendCmd c s
  | .sendFrame n => Sys2Proof.Machine.execSendFrame n s
  | .waitAck => Sys2Proof.Machine.execWaitAck s
  | .readByte => Sys2Proof.Machine.execReadByte s
  | .readBytes n => Sys2Proof.Machine.execReadBytes n s
  | .flushRx => Sys2Proof.Machine.execFlushRx s
  | .setEvenParity => Sys2Proof.Machine.execSetEvenParity s
  | .seqStart resume => Sys2Proof.Machine.execSeqStart resume s

end Sys2Proof.Machine
end

