-- ==== Sys2Proof/Machine/Calls.lean ====
section
/-!
DEFINITION. The link calls of 00_scope.md R13, how the Sequencer issues one (46_sequencer.md R282), and
the ISP transactions of 45_isp_transactions.md as lists of link calls with their wire bytes.
-/

namespace Sys2Proof.Machine

/-- A link call (R13). -/
inductive LinkCall where
  /-- `L.probe()`. -/
  | probe
  /-- `L.cmd(c)`. -/
  | cmd (c : Byte)
  /-- `L.frame(p)`. -/
  | frame (p : List Byte)
  /-- `L.wait(k)`. -/
  | wait (k : Word)
  /-- `L.read1()`. -/
  | read1
  /-- `L.readn(n)`. -/
  | readn (n : Nat)
  /-- `L.flush()`. -/
  | flush
  /-- `L.parity()`. -/
  | parity
  deriving DecidableEq, Repr

/-- The 9-bit length of a call's request. A length that does not fit makes the request word `BAD` (R113,
R114), and 511, which no operation takes either, stands for it: both finish with `BAD_REQUEST`. No run
from reset has such a call (log 31). -/
def lenField (n : Nat) : BitVec 9 := BitVec.ofNat 9 (min n 511)

/-- The request a call issues (R13, R282). -/
def LinkCall.request : LinkCall → Instr
  | .probe => .probe
  | .cmd c => .sendCmd c
  | .frame p => .sendFrame (lenField p.length)
  | .wait _ => .waitAck
  | .read1 => .readByte
  | .readn n => .readBytes (lenField n)
  | .flush => .flushRx
  | .parity => .setEvenParity

/-- `TXBUF[i] ← p[i]` for every `i < len(p)`, setting `TXW[i]` (R282). -/
def State.fillTxbuf (p : List Byte) (s : State) : State :=
  { s with link := { s.link with txbuf := s.link.txbuf.writeList 0 p } }

/-- `BUDGET ← k` (10_state.md R33, R282). -/
def State.setBudget (k : Word) (s : State) : State :=
  { s with link := { s.link with budget := k } }

/-- What a call writes before its request (R282). -/
def LinkCall.prepare (call : LinkCall) (s : State) : State :=
  match call with
  | .frame p => s.fillTxbuf p
  | .wait k => s.setBudget k
  | .probe | .cmd _ | .read1 | .readn _ | .flush | .parity => s

/-- A call issued: its writes, then its request accepted by the engine (R163, R282). -/
def LinkCall.issue (call : LinkCall) (s : State) : Host.Outcome State Fault Refusal :=
  exec call.request (call.prepare s)

/-- The bytes one attempt of a call puts on the wire (40_link_ops.md R189). -/
def LinkCall.hostBytes : LinkCall → List Byte
  | .probe => encProbe
  | .cmd c => encCmd c
  | .frame p => encFrame p
  | .wait _ | .read1 | .readn _ | .flush | .parity => []

/-- How many bytes a successful call takes from the channel (R189). -/
def LinkCall.takes : LinkCall → Nat
  | .probe | .cmd _ | .frame _ | .wait _ | .read1 => 1
  | .readn n => n
  | .flush | .parity => 0

/-! ### ISP transactions (45_isp_transactions.md) -/

/-- `ISP.SYNC` (R233). -/
def ispSync : List LinkCall := [.probe]

/-- `ISP.GET` with GET's opcode `g`, for a Device that answers the count `n` (R234); `long` is
`LONG_POLLS` (R232). -/
def ispGet (g : Byte) (n : Nat) (long : Word) : List LinkCall :=
  [.cmd g, .read1, .read1] ++ (if 1 ≤ n then [.readn n] else []) ++ [.wait long]

/-- `ISP.GETID` with the opcode `op`, for a Device whose length byte asks for `m` bytes (R235). -/
def ispGetId (op : Byte) (m : Nat) (long : Word) : List LinkCall :=
  [.cmd op, .read1, .readn m, .wait long]

/-- `ISP.READMEM a, n` (R236). -/
def ispReadMem (op : Byte) (a : Word) (n : Nat) : List LinkCall :=
  [.cmd op, .frame (encAddr a), .frame [lenByte n], .readn n]

/-- `ISP.GO a` (R237). -/
def ispGo (op : Byte) (a : Word) : List LinkCall := [.cmd op, .frame (encAddr a)]

/-- `ISP.WRITEMEM a, d` (R238). -/
def ispWriteMem (op : Byte) (a : Word) (d : List Byte) : List LinkCall :=
  [.cmd op, .frame (encAddr a), .frame (writeDataPayload d)]

/-- The payload of the erase frame for the erase opcode `op` (30_encoding.md R141). -/
def erasePayload (op : Byte) : List Byte :=
  if op = Config.extEraseOpcode then massErasePayload else globalErasePayload

/-- `ISP.ERASE`, extended where the opcode is `EXT_ERASE_OPCODE` and legacy otherwise (R239, R240). -/
def ispErase (op : Byte) : List LinkCall := [.cmd op, .frame (erasePayload op)]

/-- `ISP.RDUNP` (R241). -/
def ispRdUnp (op : Byte) : List LinkCall := [.cmd op]

/-- Where a transaction stands once its first `k` calls have been issued (R230). -/
inductive Progress where
  /-- Every call so far finished with `OK`: this one is next. -/
  | issue (call : LinkCall)
  /-- The last call issued did not finish with `OK`: the transaction failed. -/
  | failed
  /-- Every call finished with `OK`: the transaction succeeded. -/
  | succeeded
  /-- The transaction has fewer than `k` calls. -/
  | outOfRange
  deriving DecidableEq, Repr

/-- The state of a transaction after `k` issued calls, `ok` telling whether the last one finished with
`OK` (R230): a failed call ends it and the calls after it are not issued. -/
def progress (t : List LinkCall) (k : Nat) (ok : Bool) : Progress :=
  if t.length < k then .outOfRange
  else if 0 < k ∧ ok = false then .failed
  else
    match t[k]? with
    | some call => .issue call
    | none => .succeeded

/-- The host bytes of a transaction whose every call succeeds at its first attempt (R245). -/
def transactionBytes (t : List LinkCall) : List Byte := t.flatMap LinkCall.hostBytes

/-- How many bytes a cooperating Device sends for a transaction (R243). -/
def transactionTakes (t : List LinkCall) : Nat := (t.map LinkCall.takes).sum

/-! The byte streams of a cooperating Device, in order (R243). -/

/-- For `ISP.SYNC`. -/
def deviceSync : List Byte := [Config.ack]

/-- For `ISP.GET`: the count, the version `v` and the opcodes. -/
def deviceGet (v : Byte) (ops : List Byte) : List Byte :=
  [Config.ack, BitVec.ofNat 8 ops.length, v] ++ ops ++ [Config.ack]

/-- For `ISP.GETID`: the length byte `l` and the ID bytes. -/
def deviceGetId (l : Byte) (id : List Byte) : List Byte := [Config.ack, l] ++ id ++ [Config.ack]

/-- For `ISP.READMEM`. -/
def deviceReadMem (data : List Byte) : List Byte := [Config.ack, Config.ack, Config.ack] ++ data

/-- For `ISP.GO` and for either form of `ISP.ERASE`. -/
def deviceTwoAcks : List Byte := [Config.ack, Config.ack]

/-- For `ISP.WRITEMEM`. -/
def deviceWriteMem : List Byte := [Config.ack, Config.ack, Config.ack]

/-- For `ISP.RDUNP`. -/
def deviceRdUnp : List Byte := [Config.ack]

end Sys2Proof.Machine
end

