-- ==== Sys2Proof/Machine/Sequencer.lean ====
section
/-!
DEFINITION. The session sequencer of 46_sequencer.md. One step runs from the end of one link operation
to the issue of the next (or to a change of step): it looks at the result of the operation before,
does what the procedure does in between, and issues the next call (log 18). `SUB` counts the calls
issued (10_state.md R65).
-/

namespace Sys2Proof.Machine

/-! ### Changes of the session -/

/-- `start <step>` (46_sequencer.md R284): from its first link operation, `TRIES` 0 (R285). -/
def State.startStep (st : SeqStep) (s : State) : State :=
  { s with seq := { s.seq with step := st, sub := 0, tries := 0 } }

/-- `SSTATE ← x` (R284). -/
def State.enter (x : SessionState) (s : State) : State :=
  { s with seq := { s.seq with sstate := x } }

/-- `SUB ← k` (10_state.md R65). -/
def State.setSub (k : Nat) (s : State) : State := { s with seq := { s.seq with sub := k } }

/-- `TRIES ← w` (R62). -/
def State.setTries (w : Word) (s : State) : State := { s with seq := { s.seq with tries := w } }

/-- `RESTARTS ← w` (R62). -/
def State.setRestarts (w : Word) (s : State) : State :=
  { s with seq := { s.seq with restarts := w } }

/-- The terminal failure `fail(step, result, addr)` (R288). -/
def State.failSession (st : FailStep) (result : ResultCode) (addr : Word) (s : State) : State :=
  { s with
    seq := { s.seq with
      sstate := .failed, failStep := st, failResult := result, failAddr := addr
      sdone := true, sbusy := false, step := .done } }

/-- The end of a session without failure (R304). -/
def State.endSession (s : State) : State :=
  { s with seq := { s.seq with sdone := true, sbusy := false, step := .done } }

/-- `stepFail(step, addr)` (R286). -/
def State.stepFail (st : FailStep) (addr : Word) (s : State) : State :=
  let c := s.countUp s.seq.tries
  let t := c.2.setTries c.1
  match s.cfg.stepRetryLimit with
  | some k => if k ≤ c.1.toNat then t.failSession st s.link.result addr else t.setSub 0
  | none => t.setSub 0

/-- What a restart clears before the probe (R297). -/
def State.clearForRestart (s : State) : State :=
  { s with
    seq := { s.seq with
      ctValid := 0, idLen := 0, flashKb := 0, fsizeValid := false, tries := 0, probes := 0
      resume := false } }

/-- `restart()` (R297). -/
def State.restart (s : State) : State :=
  let c := s.countUp s.seq.restarts
  let t := c.2.setRestarts c.1
  let again := (t.clearForRestart.enter .disconnected).startStep .probe
  match s.cfg.restartLimit with
  | some k => if k < c.1.toNat then t.failSession .restartLimit .ok 0 else again
  | none => again

/-! ### Calls and reads inside a procedure -/

/-- A link call issued, `SUB` then being `k` (R282). -/
def callAt (k : Nat) (call : LinkCall) (s : State) : Host.Outcome State Fault Refusal :=
  call.issue (s.setSub k)

/-- `CT[i]`; none where its `CT_VALID` bit is 0 (10_state.md R63). -/
def State.ctEntry (i : Nat) (s : State) : Option Byte :=
  if s.seq.ctValid.getLsbD i then s.seq.ct.read i else none

/-- The Sequencer reads `CT[i]`: an entry not filled is `fault(CT_UNFILLED)` (R282). -/
def withCt (i : Nat) (s : State) (k : Byte → Host.Outcome State Fault Refusal) :
    Host.Outcome State Fault Refusal :=
  match s.ctEntry i with
  | some op => k op
  | none => .next (s.raise .ctUnfilled)

/-- The Sequencer takes the reply `RXBUF[0..n)`. After a read that finished with `OK` every byte has a
value; where one has none the read is `fault(RXBUF_UNWRITTEN)` as a client's would be (log 11). -/
def withReply (n : Nat) (s : State) (k : List Byte → Host.Outcome State Fault Refusal) :
    Host.Outcome State Fault Refusal :=
  match s.link.rxbuf.readRange 0 n with
  | some bs => k bs
  | none => .next (s.raise .rxbufUnwritten)

/-- One move of a step that runs a transaction (45_isp_transactions.md R230): the next call, or what
the procedure does when the transaction fails or succeeds. -/
def runTransaction (t : List LinkCall) (s failed succeeded : State) :
    Host.Outcome State Fault Refusal :=
  match progress t s.seq.sub s.resultOk with
  | .issue call => callAt (s.seq.sub + 1) call s
  | .failed => .next failed
  | .succeeded => .next succeeded
  | .outOfRange => .fault .noSuchPosition

/-! ### Step PROBE (R289) -/

/-- A failed probe (R287, R289). -/
def State.probeFailed (s : State) : State :=
  let t : State := { s with seq := { s.seq with probes := s.seq.probes + 1 } }
  match s.cfg.probeLimit with
  | some k => if k ≤ s.seq.probes + 1 then t.failSession .probe s.link.result 0 else t.setSub 1
  | none => t.setSub 1

/-- Step `PROBE`: call 0 is the flush, call 1 the probe, repeated (R289). -/
def probeStep (s : State) : Host.Outcome State Fault Refusal :=
  match s.seq.sub with
  | 0 => callAt 1 .flush s
  | 1 => callAt 2 .probe s
  | 2 =>
    if s.resultOk then .next ((s.enter .handshaking).startStep .identify) else .next s.probeFailed
  | _ => .fault .noSuchPosition

/-! ### Step IDENTIFY (R291 to R293) -/

/-- An attempt of the step starts (R291). -/
def State.clearIdentity (s : State) : State :=
  { s with seq := { s.seq with ctValid := 0, idLen := 0 } }

/-- Bytes stored in the Command Table from index `i` on (R292). -/
def State.storeCt (i : Nat) (bs : List Byte) (s : State) : State :=
  { s with seq := { s.seq with ct := s.seq.ct.writeList i bs } }

/-- `CT_VALID ← bits 0 to n + 1 set` (R292). -/
def State.setCtValid (n : Nat) (s : State) : State :=
  { s with seq := { s.seq with ctValid := BitVec.ofNat 16 (2 ^ (n + 2) - 1) } }

/-- `ID_LEN ← l` (R293). -/
def State.setIdLen (l : Byte) (s : State) : State :=
  { s with seq := { s.seq with idLen := l } }

/-- Bytes stored in `ID` from index 0 on (R293). -/
def State.storeId (bs : List Byte) (s : State) : State :=
  { s with seq := { s.seq with ident := s.seq.ident.writeList 0 bs } }

/-- The count byte has come: `CT[0]` is stored, and a count above 14 is `fault(CT_OVERFLOW)` after that
store (R292; V49; DEDUCED, log 7, unsafe). -/
def identifyCount (s : State) : Host.Outcome State Fault Refusal :=
  withReply 1 s fun bs =>
    let n := (bs.headD 0).toNat
    if n ≤ Config.ctCapacity - 2 then callAt 3 .read1 (s.storeCt 0 bs)
    else .next ((s.storeCt 0 bs).raise .ctOverflow)

/-- The count of the table being read: `CT[0]`, stored before it is valid (R292). -/
def withCount (s : State) (k : Nat → Host.Outcome State Fault Refusal) :
    Host.Outcome State Fault Refusal :=
  match s.seq.ct.read 0 with
  | some n => k n.toNat
  | none => .next (s.raise .ctUnfilled)

/-- The version has come: `CT[1]` is stored, then the opcodes are read, or with a count of 0 the table
is complete and the trailing acknowledgement is awaited (R292). -/
def identifyVersion (s : State) : Host.Outcome State Fault Refusal :=
  withReply 1 s fun bs =>
    withCount s fun n =>
      if 1 ≤ n then callAt 4 (.readn n) (s.storeCt 1 bs)
      else callAt 5 (.wait s.cfg.longPolls) ((s.storeCt 1 bs).setCtValid n)

/-- The opcodes have come (R292). -/
def identifyOpcodes (s : State) : Host.Outcome State Fault Refusal :=
  withCount s fun n =>
    withReply n s fun bs =>
      callAt 5 (.wait s.cfg.longPolls) ((s.storeCt 2 bs).setCtValid n)

/-- The ID length has come: `ID_LEN` is stored, and an `ID_BYTES` outside 1 to 256 is `fault(ID_BAD)`
after that store (R293; DEDUCED, log 7, unsafe). -/
def identifyIdLen (s : State) : Host.Outcome State Fault Refusal :=
  withReply 1 s fun bs =>
    let m := idBytes s.cfg (bs.headD 0)
    if 1 ≤ m ∧ m ≤ Arr.ident.size then callAt 8 (.readn m) (s.setIdLen (bs.headD 0))
    else .next ((s.setIdLen (bs.headD 0)).raise .idBad)

/-- The ID bytes have come (R293). -/
def identifyId (s : State) : Host.Outcome State Fault Refusal :=
  withReply (idBytes s.cfg s.seq.idLen) s fun bs =>
    callAt 9 (.wait s.cfg.longPolls) (s.storeId bs)

/-- Step `IDENTIFY` by `SUB`: calls 0 to 4 are `ISP.GET` and calls 5 to 8 `ISP.GETID` (R291 to R293). A
call that did not finish with `OK` is a failed attempt. -/
def identifyStep (s : State) : Host.Outcome State Fault Refusal :=
  if s.seq.sub = 0 then callAt 1 (.cmd s.cfg.getOpcode) s.clearIdentity
  else if 9 < s.seq.sub then .fault .noSuchPosition
  else if s.resultOk = false then .next (s.stepFail .identify 0)
  else
    match s.seq.sub with
    | 1 => callAt 2 .read1 s
    | 2 => identifyCount s
    | 3 => identifyVersion s
    | 4 => identifyOpcodes s
    | 5 => withCt 4 s fun op => callAt 6 (.cmd op) s
    | 6 => callAt 7 .read1 s
    | 7 => identifyIdLen s
    | 8 => identifyId s
    | _ => .next ((s.enter .identified).startStep .flashSize)

/-! ### Steps FLASH_SIZE, UNPROTECT and ERASE (R294 to R298) -/

/-- `FLASH_KB ← flashKB(RXBUF[0], RXBUF[1])`, `FSIZE_VALID ← 1` (R294). -/
def State.setFlashSize (bs : List Byte) (s : State) : State :=
  { s with
    seq := { s.seq with flashKb := flashKB (bs.headD 0) (bs.tail.headD 0), fsizeValid := true } }

/-- A failed transaction of step `FLASH_SIZE`: of the READ-MEMORY command pair, read-out protection and
no step failure (R295); of a later call, the step is redone (R294). -/
def State.flashSizeFailed (s : State) : State :=
  if s.seq.sub = 1 then s.startStep .unprotect else s.stepFail .flashSize Config.flashSizeAddr

/-- The flash size stored and step `ERASE` started (R294). -/
def State.flashSizeKnown (bs : List Byte) (s : State) : State :=
  ((s.setFlashSize bs).enter .flashSizeKnown).startStep .erase

/-- Step `FLASH_SIZE`: `ISP.READMEM FLASH_SIZE_ADDR, 2` (R294). -/
def flashSizeStep (s : State) : Host.Outcome State Fault Refusal :=
  withCt 5 s fun op =>
    match progress (ispReadMem op Config.flashSizeAddr 2) s.seq.sub s.resultOk with
    | .issue call => callAt (s.seq.sub + 1) call s
    | .failed => .next s.flashSizeFailed
    | .succeeded => withReply 2 s fun bs => .next (s.flashSizeKnown bs)
    | .outOfRange => .fault .noSuchPosition

/-- Step `UNPROTECT`: `ISP.RDUNP`, then the restart (R296). -/
def unprotectStep (s : State) : Host.Outcome State Fault Refusal :=
  withCt 12 s fun op => runTransaction (ispRdUnp op) s (s.stepFail .unprotect 0) s.restart

/-- Step `ERASE`: `ISP.ERASE` in the form the opcode selects (R298). -/
def eraseStep (s : State) : Host.Outcome State Fault Refusal :=
  withCt 8 s fun op =>
    runTransaction (ispErase op) s (s.stepFail .erase 0) ((s.enter .erased).startStep .program)

/-! ### Step PROGRAM (R299 to R303) -/

/-- A page latched (R299). -/
def State.latchPage (base : Word) (data : List Byte) (rest : List PageItem) (s : State) : State :=
  { s with source := rest, seq := { s.seq with latch := some { base, data }, tries := 0 } }

/-- An entry point recorded; the last one before `End` stands (R299, R300). -/
def State.setStart (a : Word) (rest : List PageItem) (s : State) : State :=
  { s with source := rest, seq := { s.seq with startAddr := a, startValid := true } }

/-- The page source pulled (R283, R299). A page whose length is outside 1 to 256 is `fault(PAGE_BAD)`
with no other effect, so it stays the next item (R302, R344; DEDUCED, log 8, unsafe). With no item
there the Sequencer waits (log 22). There is one stream for all sessions: nothing is pulled after
`End` or `Error` in a session, and a later session goes on with the items behind it (DESIGN CHOICE,
log 29, unsafe). -/
def pullStep (s : State) : Host.Outcome State Fault Refusal :=
  match s.source with
  | [] => .next s
  | .page b d :: rest =>
    if 1 ≤ d.length ∧ d.length ≤ Config.pageMax then .next (s.latchPage b d rest)
    else .next (s.raise .pageBad)
  | .start a :: rest => .next (s.setStart a rest)
  | .endOfImage :: rest =>
    .next (({ s with source := rest } : State).enter .programming |>.startStep .go)
  | .error :: rest => .next (({ s with source := rest } : State).failSession .sourceError .ok 0)

/-- The latched page is written: `PVALID ← 0`, `TRIES ← 0`, and the loop goes on (R299). -/
def State.pageWritten (s : State) : State :=
  { s with seq := { s.seq with latch := none, tries := 0, sub := 0 } }

/-- Step `PROGRAM`: a pull where no page is latched, else `ISP.WRITEMEM` of the latched page; a failed
write keeps the page latched (R299, R303). -/
def programStep (s : State) : Host.Outcome State Fault Refusal :=
  match s.seq.latch with
  | none => if s.seq.sub = 0 then pullStep s else .fault .noSuchPosition
  | some pg =>
    withCt 7 s fun op =>
      runTransaction (ispWriteMem op pg.base pg.data) s (s.stepFail .pageWrite pg.base) s.pageWritten

/-! ### Step GO (R304) -/

/-- The jump succeeded (R304). -/
def State.jumped (s : State) : State :=
  (({ s with seq := { s.seq with goIssued := true } } : State).enter .jumped).endSession

/-- Step `GO`: `ISP.GO START_ADDR`, or the end where there is no entry point (R304). -/
def goStep (s : State) : Host.Outcome State Fault Refusal :=
  if s.seq.startValid = false then .next s.endSession
  else
    withCt 6 s fun op =>
      runTransaction (ispGo op s.seq.startAddr) s (s.stepFail .go s.seq.startAddr) s.jumped

/-! ### The Sequencer's step -/

/-- One step of the Sequencer, taken while a session runs and the engine is idle (R280, R284). -/
def seqStep (s : State) : Host.Outcome State Fault Refusal :=
  match s.seq.step with
  | .probe => probeStep s
  | .identify => identifyStep s
  | .flashSize => flashSizeStep s
  | .unprotect => unprotectStep s
  | .erase => eraseStep s
  | .program => programStep s
  | .go => goStep s
  | .none | .done => .fault .noSuchPosition

end Sys2Proof.Machine
end

