-- ==== Sys2Proof/Machine/Port.lean ====
section
/-!
DEFINITION. The client port (10_state.md R32): registers by number, byte arrays by index, their access
rights, and the request a write to `REQ` makes (40_link_ops.md R163, 60_exceptions.md R348).
-/

namespace Sys2Proof.Machine

/-- The registers of R32. -/
inductive Reg where
  | req
  | budget
  | status
  | seqStatus
  | failAddr
  | flashKb
  | startAddr
  | ctValid
  | idLen
  | tries
  | restarts
  deriving DecidableEq, Repr

/-- The register with a number; registers 4 to 11 exist with the Sequencer only (R32, R66). -/
def regOfNum (seqPresent : Bool) (num : Nat) : Option Reg :=
  match num with
  | 0 => some .req
  | 1 => some .budget
  | 2 => some .status
  | 4 => if seqPresent then some .seqStatus else none
  | 5 => if seqPresent then some .failAddr else none
  | 6 => if seqPresent then some .flashKb else none
  | 7 => if seqPresent then some .startAddr else none
  | 8 => if seqPresent then some .ctValid else none
  | 9 => if seqPresent then some .idLen else none
  | 10 => if seqPresent then some .tries else none
  | 11 => if seqPresent then some .restarts else none
  | _ => none

/-- What a register reads as (R32 to R34, R54, R57 to R62); `REQ` reads 0. -/
def Reg.value (r : Reg) (s : State) : Word :=
  match r with
  | .req => 0
  | .budget => s.link.budget
  | .status => statusWord s
  | .seqStatus => seqStatusWord s
  | .failAddr => s.seq.failAddr
  | .flashKb => s.seq.flashKb.zeroExtend 32
  | .startAddr => s.seq.startAddr
  | .ctValid => s.seq.ctValid.zeroExtend 32
  | .idLen => s.seq.idLen.zeroExtend 32
  | .tries => s.seq.tries
  | .restarts => s.seq.restarts

/-- Whether an array exists (R32, R66). -/
def Arr.present (seqPresent : Bool) : Arr → Bool
  | .txbuf | .rxbuf => true
  | .ct | .ident => seqPresent

/-- The value of an array's element where the rules give it one (R42, R43, R63, R64). -/
def Arr.element (a : Arr) (i : Nat) (s : State) : Option Byte :=
  match a with
  | .txbuf => s.link.txbuf.read i
  | .rxbuf => if i < s.link.rxcnt then s.link.rxbuf.read i else none
  | .ct => s.ctEntry i
  | .ident =>
    if i < idBytes s.cfg s.seq.idLen ∧ s.identified = true then s.seq.ident.read i else none

/-- The fault of a read of an element that has no value (60_exceptions.md R345). -/
def Arr.unwritten : Arr → FaultReason
  | .txbuf => .txbufUnwritten
  | .rxbuf => .rxbufUnwritten
  | .ct => .ctUnfilled
  | .ident => .idUnwritten

/-- A read's value handed to the client (log 19). -/
def State.reply (v : PortValue) (s : State) : State := { s with portOut := s.portOut ++ [v] }

/-- `TXBUF[i] ← b`, `TXW[i]` set (R42). -/
def State.writeTxbuf (i : Nat) (b : Byte) (s : State) : State :=
  { s with link := { s.link with txbuf := s.link.txbuf.write i b } }

/-- `RegRead(num)` (R32). -/
def regRead (num : Nat) (s : State) : State :=
  match regOfNum s.cfg.seqPresent num with
  | some r => s.reply (.word (r.value s))
  | none => s.raise .badRegister

/-- A request word written by a client that may write: the operation it decodes to is accepted by the
engine, a reserved word is `BAD_REQUEST` (R163). -/
def request (v : Word) (s : State) : Host.Outcome State Fault Refusal :=
  match decodeReq s.cfg.seqPresent v with
  | .ok i => exec i s
  | .error _ => .next (s.badRequest v)

/-- `RegWrite(num, v)` (R32, R35, R348). -/
def regWrite (num : Nat) (v : Word) (s : State) : Host.Outcome State Fault Refusal :=
  match regOfNum s.cfg.seqPresent num with
  | some .req => if s.clientLocked then .next (s.raise .clientBusyWrite) else request v s
  | some .budget =>
    if s.clientLocked then .next (s.raise .clientBusyWrite) else .next (s.setBudget v)
  | _ => .next (s.raise .badRegister)

/-- `ArrRead(array, i)` (R32). An index outside `RXBUF` or `ID` is also one that has no value (R43, R64), and
no rule ranks the two faults: the model raises `BAD_REGISTER` alone (DESIGN CHOICE, log 17, unsafe). -/
def arrRead (a : Arr) (i : Nat) (s : State) : State :=
  if a.present s.cfg.seqPresent = true ∧ i < a.size then
    match a.element i s with
    | some b => s.reply (.byte b)
    | none => s.raise a.unwritten
  else s.raise .badRegister

/-- `ArrWrite(array, i, b)` (R32, R35, R42). The bounds and the access right are looked at before the
busy rule (DESIGN CHOICE, log 17, unsafe). -/
def arrWrite (a : Arr) (i : Nat) (b : Byte) (s : State) : State :=
  if a = .txbuf ∧ i < a.size then
    if s.clientLocked then s.raise .clientBusyWrite else s.writeTxbuf i b
  else s.raise .badRegister

/-- One client access (R32). -/
def access (a : Access) (s : State) : Host.Outcome State Fault Refusal :=
  match a with
  | .regRead num => .next (regRead num s)
  | .regWrite num v => regWrite num v s
  | .arrRead a i => .next (arrRead a i s)
  | .arrWrite a i b => .next (arrWrite a i b s)

end Sys2Proof.Machine
end

