-- ==== Sys2Proof/Machine/Turns.lean ====
section
/-!
DEFINITION. Whose turn it is (00_scope.md R5): the block's own move, the turns of the environment, and
a client program (30_encoding.md R145, R146) as turns.
-/

namespace Sys2Proof.Machine

/-- The block's own move: the engine while it is busy (40_link_ops.md R169), else the Sequencer while a
session runs (46_sequencer.md R280), else nothing is enabled and nothing changes (log 12). -/
def advance (s : State) : Host.Outcome State Fault Refusal :=
  if s.link.lstate ≠ .idle then engineStep s
  else if s.seq.sbusy then seqStep s
  else .next s

/-- One turn of the environment, already taken off the list; `WAITIDLE` goes back on it while the
engine is busy (30_encoding.md R145; log 23). -/
def takeTurn (t : Turn) (s : State) : Host.Outcome State Fault Refusal :=
  match t with
  | .run => advance s
  | .device b => .next (s.deviceByte b)
  | .source it => .next { s with source := s.source ++ [it] }
  | .client a => access a s
  | .waitIdle => if s.busy then engineStep { s with turns := .waitIdle :: s.turns } else .next s
  | .reset => .next s.resetEvent

/-- One move of the whole machine. -/
def move (s : State) : Host.Outcome State Fault Refusal :=
  match s.turns with
  | [] => advance s
  | t :: rest => takeTurn t { s with turns := rest }

/-! ### Client programs (30_encoding.md R145, R146) -/

/-- A line of a client program (R145). -/
inductive Line where
  | probe
  | sendCmd (c : Byte)
  | sendFrame (n : Nat)
  | waitAck
  | readB
  | readN (n : Nat)
  | flushRx
  | setParity
  | seqStart (resume : Bool)
  /-- `TX i, b`. -/
  | tx (i : Nat) (b : Byte)
  /-- `BUDGET k`. -/
  | budget (k : Word)
  /-- `WAITIDLE`. -/
  | waitIdle
  deriving DecidableEq, Repr

/-- The request word of a line that is a request (the table of R145). `n << 16` is a shift of a u32, which
keeps the low 32 bits (00_scope.md R8): a length of 512 or more reaches the reserved bits 31:25 and the
word is `BAD` (R113). That `n` is a u32 is read from the width of the word (DEDUCED, log 31, unsafe): a
length of 65536 or more loses its upper bits. -/
def Line.word : Line → Option Word
  | .probe => some 0x00000001
  | .sendCmd c => some ((c.zeroExtend 32 <<< 8) + 0x2)
  | .sendFrame n => some ((BitVec.ofNat 32 n <<< 16) + 0x3)
  | .waitAck => some 0x00000004
  | .readB => some 0x00000005
  | .readN n => some ((BitVec.ofNat 32 n <<< 16) + 0x6)
  | .flushRx => some 0x00000007
  | .setParity => some 0x00000008
  | .seqStart resume => some (if resume then 0x00000109 else 0x00000009)
  | .tx _ _ | .budget _ | .waitIdle => none

/-- The turns of a line. A request waits for the idle engine first (R145). That a `TX` and a `BUDGET` do too
is the model's choice: R145 gives the implied `WAITIDLE` to request lines only (DESIGN CHOICE, log 23,
safe). -/
def Line.turns (l : Line) : List Turn :=
  match l with
  | .tx i b => [.waitIdle, .client (.arrWrite .txbuf i b)]
  | .budget k => [.waitIdle, .client (.regWrite 1 k)]
  | .waitIdle => [.waitIdle]
  | .probe | .sendCmd _ | .sendFrame _ | .waitAck | .readB | .readN _ | .flushRx | .setParity
  | .seqStart _ =>
    match l.word with
    | some v => [.waitIdle, .client (.regWrite 0 v)]
    | none => []

/-- `TX i, p[0]`, `TX i+1, p[1]` and so on. -/
def txLines (i : Nat) : List Byte → List Line
  | [] => []
  | b :: p => .tx i b :: txLines (i + 1) p

/-- `FRAME p` (R146). -/
def frameLines (p : List Byte) : List Line := txLines 0 p ++ [.sendFrame p.length]

/-- `ADDR a` (R146). -/
def addrLines (a : Word) : List Line := frameLines (encAddr a)

/-- `WDATA d` (R146); what the length byte of `WDATA []` or of more than 256 bytes is, log 32. -/
def wdataLines (d : List Byte) : List Line := frameLines (writeDataPayload d)

/-- `RLEN n` (R146); what the length byte of a count outside 1 to 256 is, log 32. -/
def rlenLines (n : Nat) : List Line := frameLines [lenByte n]

/-- `WAIT k` (R146). -/
def waitLines (k : Word) : List Line := [.budget k, .waitAck]

/-- The lines of a link call made by a client (45_isp_transactions.md, R146). -/
def LinkCall.lines : LinkCall → List Line
  | .probe => [.probe]
  | .cmd c => [.sendCmd c]
  | .frame p => frameLines p
  | .wait k => waitLines k
  | .read1 => [.readB]
  | .readn n => [.readN n]
  | .flush => [.flushRx]
  | .parity => [.setParity]

/-- A client program as the turns it makes (R145). -/
def programTurns (p : List Line) : List Turn := p.flatMap Line.turns

end Sys2Proof.Machine
end

