-- ==== Sys2Proof/Machine/Step.lean ====
section
/-!
DEFINITION. One step of the machine, and the placing of a request word where the next step takes it.
-/

namespace Sys2Proof.Machine

/-- One step: the next move of 00_scope.md R5, refused for a run whose parameters 60_exceptions.md
R346 excludes (log 10). -/
def step (s : State) : Host.Outcome State Fault Refusal :=
  if legalParameters s.cfg then move s else .refused .illegalParameter

/-- The state in which the very next step is the client's `RegWrite(REQ, w)` to an idle block with no
session, `w` having `nbits` bits and 0 above them (log 20). -/
def State.withFetchWord (s : State) (nbits w : Nat) : State :=
  { s with
    link := { s.link with lstate := .idle }
    seq := { s.seq with sbusy := false }
    turns := .client (.regWrite 0 (BitVec.ofNat 32 (w % 2 ^ nbits))) :: s.turns }

end Sys2Proof.Machine
end

