-- ==== Sys2Proof/Safety.lean ====
section
/-!
DEFINITION. What counts as a good state and a finished run, in the terms the statements use: the
invariant of the machine and the end of a run (70_reset_and_hazards.md R412).
-/

namespace Sys2Proof.Machine

/-- The run has ended (R412): the engine is idle, no session step is in progress, no fault was recorded. -/
abbrev State.Final (s : State) : Prop :=
  s.link.lstate = .idle ∧
    (s.cfg.seqPresent = false ∨ s.seq.step = .none ∨ s.seq.step = .done) ∧
    s.faults = []

/-- The outcome `o` is `fault(r)` of the state `s`: the reason is in `FAULTS` and nothing else happens
(60_exceptions.md R344). -/
def RecordsFault (r : FaultReason) (s : State) (o : Host.Outcome State Fault Refusal) : Prop :=
  ∃ f : List FaultReason, (∀ x, x ∈ f ↔ x ∈ s.faults ∨ x = r) ∧ o = .next { s with faults := f }

/-- The byte arrays keep their canonical form and their sizes (10_state.md R32). -/
structure ArraysInv (s : State) : Prop where
  txbuf_wf : s.link.txbuf.wf
  rxbuf_wf : s.link.rxbuf.wf
  ct_wf : s.seq.ct.wf
  ident_wf : s.seq.ident.wf
  txbuf_within : s.link.txbuf.within Arr.txbuf.size
  rxbuf_within : s.link.rxbuf.within Arr.rxbuf.size
  ct_within : s.seq.ct.within Arr.ct.size
  ident_within : s.seq.ident.within Arr.ident.size

/-- The operation in flight while the engine sends or waits: `TXQ` is the operation's encoding and
`ATTEMPTS` is within its bound (40_link_ops.md R163, R167, R189; 20_memory.md R98). -/
def sendingOk (s : State) : Prop :=
  match s.link.opr with
  | some .probe => s.link.txq = encProbe ∧ s.link.attempts = 1
  | some (.sendCmd c) =>
    s.link.txq = encCmd c ∧ 1 ≤ s.link.attempts ∧ s.link.attempts ≤ s.cfg.cmdAttempts
  | some (.sendFrame n) =>
    Instr.frameLenOk n ∧ (s.txPayload n.toNat).map encFrame = some s.link.txq ∧ s.link.attempts = 1
  | some .waitAck => s.link.lstate = .ackwait ∧ s.link.txq = [] ∧ s.link.attempts = 1
  | _ => False

/-- The read in flight: `RXN` is the operation's count (R163). -/
def readingOk (s : State) : Prop :=
  match s.link.opr with
  | some .readByte => s.link.rxn = 1
  | some (.readBytes n) => Instr.readLenOk n ∧ s.link.rxn = n.toNat
  | _ => False

/-- The operation last accepted is a read. -/
def State.lastWasRead (s : State) : Bool :=
  match s.link.opr with
  | some .readByte => true
  | some (.readBytes _) => true
  | _ => false

/-- The Link engine (10_state.md R40, R44 to R48). -/
structure LinkInv (s : State) : Prop where
  /-- `ACKOUT` exists inside a step only (R48). -/
  ackout_none : s.link.ackout = none
  /-- While sending or waiting, the operation is one that does. -/
  sending : s.link.lstate = .tx ∨ s.link.lstate = .ackwait → sendingOk s
  /-- A byte is left to send (R164). -/
  txptr_lt : s.link.lstate = .tx → s.link.txptr < s.link.txq.length
  /-- While receiving, the operation is a read that is not complete (R168). -/
  reading : s.link.lstate = .rx → readingOk s ∧ s.link.rxcnt < s.link.rxn
  /-- `RXCNT` is at most the size of `RXBUF` (R40). -/
  rxcnt_le : s.link.rxcnt ≤ Arr.rxbuf.size
  /-- Every byte a client may read has a value (R43). -/
  rxbuf_held : ∀ k < s.link.rxcnt, (s.link.rxbuf.read k).isSome
  /-- A read that finished with `OK` stored every byte it was asked for (R40, R168). -/
  read_done : s.link.lstate = .idle → s.link.result = .ok → s.lastWasRead = true →
    readingOk s ∧ s.link.rxcnt = s.link.rxn

/-- The last position of a step's procedure (46_sequencer.md R289 to R304). -/
def SeqStep.lastSub : SeqStep → Nat
  | .probe => 2
  | .identify => 9
  | .flashSize => 4
  | .unprotect => 1
  | .erase => 2
  | .program => 3
  | .go => 2
  | .none | .done => 0

/-- `SSTATE` during a step (R284). -/
def SeqStep.during : SeqStep → SessionState
  | .probe => .disconnected
  | .identify => .handshaking
  | .flashSize => .identified
  | .unprotect => .identified
  | .erase => .flashSizeKnown
  | .program => .erased
  | .go => .programming
  | .none => .disconnected
  | .done => .failed

/-- The three outcomes of a session (R305). -/
def outcomeOk (q : Session) : Prop :=
  (q.sstate = .jumped ∧ q.goIssued = true ∧ q.failStep = .none) ∨
    (q.sstate = .programming ∧ q.goIssued = false ∧ q.failStep = .none) ∨
    (q.sstate = .failed ∧ q.goIssued = false ∧ q.failStep ≠ .none)

/-- The request whose reply the procedure takes at its position (R292 to R294). -/
def awaitedOk (s : State) : Prop :=
  match s.seq.step, s.seq.sub with
  | .identify, 2 => s.link.opr = some .readByte
  | .identify, 3 =>
    s.link.opr = some .readByte ∧ ∃ n, s.seq.ct.read 0 = some n ∧ n.toNat ≤ Config.ctCapacity - 2
  | .identify, 4 =>
    (s.seq.ct.read 1).isSome ∧
      ∃ n, s.seq.ct.read 0 = some n ∧ 1 ≤ n.toNat ∧ n.toNat ≤ Config.ctCapacity - 2 ∧
        s.link.opr = some (.readBytes (BitVec.ofNat 9 n.toNat))
  | .identify, 7 => s.link.opr = some .readByte
  | .identify, 8 =>
    1 ≤ idBytes s.cfg s.seq.idLen ∧ idBytes s.cfg s.seq.idLen ≤ Arr.ident.size ∧
      s.link.opr = some (.readBytes (BitVec.ofNat 9 (idBytes s.cfg s.seq.idLen)))
  | .flashSize, 4 => s.link.opr = some (.readBytes 2)
  | _, _ => True

/-- The Sequencer while a session runs (R280, R284; 10_state.md R65). -/
structure RunningInv (s : State) : Prop where
  present : s.cfg.seqPresent = true
  step_run : s.seq.step ≠ .none ∧ s.seq.step ≠ .done
  sub_le : s.seq.sub ≤ s.seq.step.lastSub
  sstate_during : s.seq.sstate = s.seq.step.during
  not_done : s.seq.sdone = false
  no_failure : s.seq.failStep = .none ∧ s.seq.failResult = .ok ∧ s.seq.failAddr = 0
  no_go : s.seq.goIssued = false
  awaited : awaitedOk s
  latched : s.seq.step = .program → s.seq.sub ≠ 0 → s.seq.latch.isSome
  entry : s.seq.step = .go → s.seq.sub ≠ 0 → s.seq.startValid = true

/-- The Sequencer (10_state.md R54 to R65, R305). -/
structure SessionInv (s : State) : Prop where
  running : s.seq.sbusy = true → RunningInv s
  stopped : s.seq.sbusy = false → s.seq.step = .none ∨ s.seq.step = .done
  done_iff : s.seq.sdone = true ↔ s.seq.step = .done
  outcome : s.seq.step = .done → outcomeOk s.seq
  unstarted : s.seq.step = .none → s.seq = Session.reset
  page_len : ∀ p ∈ s.seq.latch, 1 ≤ p.data.length ∧ p.data.length ≤ Config.pageMax
  ct_held : ∀ i, s.seq.ctValid.getLsbD i = true → (s.seq.ct.read i).isSome

/-- The invariant of the machine. -/
structure State.Inv (s : State) : Prop where
  arrays : ArraysInv s
  engine : LinkInv s
  session : SessionInv s
  /-- `FAULTS` is a set (10_state.md R49). -/
  faults_nodup : s.faults.Nodup

end Sys2Proof.Machine
end

