-- ==== Sys2Proof/Certificates/Slice0/Obligations.lean ====
section
/-!
DEFINITION. The statements for the provers.
-/

open Sys2Proof Sys2Proof.Machine

/-! ### The request word (30_encoding.md) -/

/-- R110, R111, R145: words written out from the encoding decode to their operations. Bits from the
left: 31:25 reserved, 24:16 LEN, 15:8 BYTE, 7:4 reserved, 3:0 OP. -/
def Obligations.TableWordsDecode : Prop :=
  decodeReq true 0b0000000_000000000_00000000_0000_0001 = .ok .probe ∧
  decodeReq true 0b0000000_000000000_00010001_0000_0010 = .ok (.sendCmd 0x11) ∧
  decodeReq true 0b0000000_100000001_00000000_0000_0011 = .ok (.sendFrame 257) ∧
  decodeReq true 0b0000000_000000000_00000000_0000_0100 = .ok .waitAck ∧
  decodeReq true 0b0000000_000000000_00000000_0000_0101 = .ok .readByte ∧
  decodeReq true 0b0000000_100000000_00000000_0000_0110 = .ok (.readBytes 256) ∧
  decodeReq true 0b0000000_000000000_00000000_0000_0111 = .ok .flushRx ∧
  decodeReq true 0b0000000_000000000_00000000_0000_1000 = .ok .setEvenParity ∧
  decodeReq true 0b0000000_000000000_00000001_0000_1001 = .ok (.seqStart true)

/-- R110 to R114, R145: decoding the word of a well-formed operation gives the operation back, every
operand at every value its field admits. -/
def Obligations.DecodeOfEncode : Prop :=
  ∀ (seqPresent : Bool) (i : Instr), i.WellFormed seqPresent →
    decodeReq seqPresent (encode i) = .ok i

/-- R110 to R114: each word that decodes has one meaning, which is well formed and whose word it is: no
reserved or unused bit is dropped. -/
def Obligations.EncodeOfDecode : Prop :=
  ∀ (seqPresent : Bool) (v : Word) (i : Instr), decodeReq seqPresent v = .ok i →
    encode i = v ∧ i.WellFormed seqPresent

/-- R113, R114: exactly these words are reserved: a nonzero reserved bit, an `OP` outside 1 to 9, 9
where there is no Sequencer, a nonzero field the operation does not use, a length out of range. The
fields are taken by arithmetic on the word's value. -/
def Obligations.ReservedWordsAreExactly : Prop :=
  ∀ (seqPresent : Bool) (v : Word),
    let op := v.toNat % 16
    let byte := v.toNat / 2 ^ 8 % 256
    let len := v.toNat / 2 ^ 16 % 512
    (∃ e, decodeReq seqPresent v = .error e) ↔
      (v.toNat / 16 % 16 ≠ 0 ∨ v.toNat / 2 ^ 25 ≠ 0 ∨ op = 0 ∨ 0xA ≤ op ∨
        (op ∈ [0x1, 0x4, 0x5, 0x7, 0x8] ∧ (byte ≠ 0 ∨ len ≠ 0)) ∨
        (op = 0x2 ∧ len ≠ 0) ∨
        (op = 0x3 ∧ (byte ≠ 0 ∨ len < 1 ∨ 257 < len)) ∨
        (op = 0x6 ∧ (byte ≠ 0 ∨ len < 1 ∨ 256 < len)) ∨
        (op = 0x9 ∧ (seqPresent = false ∨ byte / 2 ≠ 0 ∨ len ≠ 0)))

/-- R145, R113: the request word of each line of the syntax is the operation's word, and a frame or a
read longer than its operation takes (up to 65535, log 31) has a reserved word. -/
def Obligations.SyntaxLinesGiveTheWords : Prop :=
  (∀ c, (Line.sendCmd c).word = some (encode (.sendCmd c))) ∧
  (∀ n : BitVec 9, (Line.sendFrame n.toNat).word = some (encode (.sendFrame n))) ∧
  (∀ n : BitVec 9, (Line.readN n.toNat).word = some (encode (.readBytes n))) ∧
  (∀ q n, 257 < n → n < 65536 →
    ∃ v e, (Line.sendFrame n).word = some v ∧ decodeReq q v = .error e) ∧
  (∀ q n, 256 < n → n < 65536 →
    ∃ v e, (Line.readN n).word = some v ∧ decodeReq q v = .error e) ∧
  (∀ r, (Line.seqStart r).word = some (encode (.seqStart r))) ∧
  Line.probe.word = some (encode .probe) ∧ Line.waitAck.word = some (encode .waitAck) ∧
  Line.readB.word = some (encode .readByte) ∧ Line.flushRx.word = some (encode .flushRx) ∧
  Line.setParity.word = some (encode .setEvenParity)

/-! ### Wire encodings (20_memory.md, 30_encoding.md, 40_link_ops.md) -/

/-- R160: one byte takes its complement, two or more the XOR of all (here folded from the other end), and
the request for a frame of no bytes is refused. -/
def Obligations.ChecksumRule : Prop :=
  (∀ b : Byte, cks [b] = 0xFF ^^^ b) ∧
  (∀ p : List Byte, 2 ≤ p.length → cks p = p.foldr (fun b x => b ^^^ x) 0) ∧
  (∀ q : Bool, decodeReq q 0x00000003 = .error .lenOutOfRange)

/-- R162: a checking receiver takes the last byte of a frame for the checksum of the others, and every
frame and every command pair passes its check. -/
def Obligations.FramesAreValid : Prop :=
  (∀ (p : List Byte) (b : Byte), 1 ≤ p.length → (validFrame (p ++ [b]) = true ↔ b = cks p)) ∧
  (∀ p : List Byte, 1 ≤ p.length → validFrame (encFrame p) = true) ∧
  (∀ c : Byte, validFrame (encCmd c) = true)

/-- R83, R84, R85: an address goes out in four bytes, most significant first; the flash size comes least
significant byte first; a length travels as the count minus one. -/
def Obligations.ByteOrderOfValues : Prop :=
  (∀ a : Word, ∃ b3 b2 b1 b0 : Byte, encAddr a = [b3, b2, b1, b0] ∧
    a.toNat = b3.toNat * 2 ^ 24 + b2.toNat * 2 ^ 16 + b1.toNat * 2 ^ 8 + b0.toNat) ∧
  (∀ r0 r1 : Byte, (flashKB r0 r1).toNat = r0.toNat + 256 * r1.toNat) ∧
  (∀ n : Nat, 1 ≤ n → n ≤ 256 → (lenByte n).toNat + 1 = n)

/-- R245, R243, R189: how many bytes the calls of a transaction send and take when every call succeeds at
once. The bytes counted for a call are those the engine holds to send once the call is issued, and the
bytes taken are the one of its acknowledgement wait or the count of its read. -/
def Obligations.TransactionByteCounts : Prop :=
  (transactionBytes ispSync).length = 1 ∧ transactionTakes ispSync = deviceSync.length ∧
  (∀ g v ops k, (transactionBytes (ispGet g ops.length k)).length = 2 ∧
    transactionTakes (ispGet g ops.length k) = (deviceGet v ops).length) ∧
  (∀ op l id k, (transactionBytes (ispGetId op id.length k)).length = 2 ∧
    transactionTakes (ispGetId op id.length k) = (deviceGetId l id).length) ∧
  (∀ op a data, (transactionBytes (ispReadMem op a data.length)).length = 9 ∧
    transactionTakes (ispReadMem op a data.length) = (deviceReadMem data).length) ∧
  (∀ op a, (transactionBytes (ispGo op a)).length = 7 ∧
    transactionTakes (ispGo op a) = deviceTwoAcks.length) ∧
  (∀ op a d, (transactionBytes (ispWriteMem op a d)).length = d.length + 9 ∧
    transactionTakes (ispWriteMem op a d) = deviceWriteMem.length) ∧
  (∀ op, (transactionBytes (ispErase op)).length = (if op = 0x44 then 5 else 4) ∧
    transactionTakes (ispErase op) = deviceTwoAcks.length) ∧
  (∀ op, (transactionBytes (ispRdUnp op)).length = 2 ∧
    transactionTakes (ispRdUnp op) = deviceRdUnp.length) ∧
  (∀ (s : State) (call : LinkCall), s.link.lstate = .idle →
    (∀ p, call = .frame p → 1 ≤ p.length ∧ p.length ≤ 257) →
    (∀ n, call = .readn n → 1 ≤ n ∧ n ≤ 256) →
    ∃ t, call.issue s = .next t ∧
      (call.hostBytes ≠ [] →
        t.link.lstate = .tx ∧ t.link.txptr = 0 ∧ t.link.txq = call.hostBytes) ∧
      (call.hostBytes = [] → t.link.lstate ≠ .tx) ∧
      call.takes = (match t.link.lstate with
        | .idle => 0 | .tx => 1 | .ackwait => 1 | .rx => t.link.rxn))

/-! ### The operations: what the accepting step does, and all it leaves unchanged

Each result names the fields the operation writes; every other part of the state is the same. What
`REQ` holds afterwards is left open (`r`): a client reads it as 0. -/

/-- R163, R170: PROBE. -/
def Obligations.ProbeAccepted : Prop :=
  ∀ s : State, s.link.lstate = .idle → ∃ r, exec .probe s = .next { s with
    link := { s.link with
      req := r, opr := some .probe, txq := [0x7F], ackb := s.cfg.shortPolls, attempts := 1
      txptr := 0, lstate := .tx } }

/-- R163, R172: SEND_CMD, for every opcode byte. -/
def Obligations.SendCmdAccepted : Prop :=
  ∀ (s : State) (c : Byte), s.link.lstate = .idle → ∃ r, exec (.sendCmd c) s = .next { s with
    link := { s.link with
      req := r, opr := some (.sendCmd c), txq := [c, 0xFF ^^^ c], ackb := s.cfg.longPolls
      attempts := s.cfg.cmdAttempts, txptr := 0, lstate := .tx } }

/-- R163, R176, R42: SEND_FRAME of a length in range whose bytes were all written: `p` is
`TXBUF[0..n)`. -/
def Obligations.SendFrameAccepted : Prop :=
  ∀ (s : State) (n : BitVec 9) (p : List Byte), s.link.lstate = .idle →
    1 ≤ n.toNat → n.toNat ≤ 257 → p.length = n.toNat →
    (∀ i < n.toNat, s.link.txbuf.read i = p[i]?) →
    ∃ r, exec (.sendFrame n) s = .next { s with
      link := { s.link with
        req := r, opr := some (.sendFrame n), txq := p ++ [cks p], ackb := s.cfg.longPolls
        attempts := 1, txptr := 0, lstate := .tx } }

/-- R163, R176, R42, R344: SEND_FRAME with an unwritten byte: the fault is recorded and nothing else
happens. That `OPR` too stays as it was is the model's reading (log 30). -/
def Obligations.SendFrameUnwrittenFaults : Prop :=
  ∀ (s : State) (n : BitVec 9) (i : Nat), s.link.lstate = .idle →
    1 ≤ n.toNat → n.toNat ≤ 257 → i < n.toNat → s.link.txbuf.read i = none →
    RecordsFault .txbufUnwritten s (exec (.sendFrame n) s)

/-- R163, R180: WAIT_ACK. -/
def Obligations.WaitAckAccepted : Prop :=
  ∀ s : State, s.link.lstate = .idle → ∃ r, exec .waitAck s = .next { s with
    link := { s.link with
      req := r, opr := some .waitAck, polls := s.link.budget, attempts := 1, txq := []
      lstate := .ackwait } }

/-- R163, R183, R185: READ_BYTE and READ_BYTES; the per-byte budget is `READ_POLLS` where bounded, and
unused where not. -/
def Obligations.ReadsAccepted : Prop :=
  ∀ s : State, s.link.lstate = .idle →
    (∃ r, exec .readByte s = .next { s with
      link := { s.link with
        req := r, opr := some .readByte, rxn := 1, rxcnt := 0, rxpolls := s.cfg.readPolls.getD 0
        lstate := .rx } }) ∧
    (∀ n : BitVec 9, 1 ≤ n.toNat → n.toNat ≤ 256 → ∃ r, exec (.readBytes n) s = .next { s with
      link := { s.link with
        req := r, opr := some (.readBytes n), rxn := n.toNat, rxcnt := 0
        rxpolls := s.cfg.readPolls.getD 0, lstate := .rx } })

/-- R163, R187: FLUSH_RX, done in the accepting step, and its one word. -/
def Obligations.FlushRxDone : Prop :=
  (∀ q v, decodeReq q v = .ok .flushRx ↔ v = 0x00000007) ∧
  ∀ s : State, s.link.lstate = .idle → ∃ r, exec .flushRx s = .next { s with
    link := { s.link with
      req := r, opr := some .flushRx, result := .ok, rv := true, lstate := .idle, ackout := none }
    chan := { s.chan with rxfifo := [] } }

/-- R163, R188: SET_EVEN_PARITY, done in the accepting step, and its one word. -/
def Obligations.SetEvenParityDone : Prop :=
  (∀ q v, decodeReq q v = .ok .setEvenParity ↔ v = 0x00000008) ∧
  ∀ s : State, s.link.lstate = .idle → ∃ r, exec .setEvenParity s = .next { s with
    link := { s.link with
      req := r, opr := some .setEvenParity, parEven := true, result := .ok, rv := true
      lstate := .idle, ackout := none }
    chan := { s.chan with chpar := .even } }

/-- R281: SEQ_START, with and without RESUME: its words; the link reports `OK`, the results of an
earlier session are cleared, `CT` and `ID` keep their contents, and the first step is PROBE or
IDENTIFY; with the engine busy or a session running it is `fault(CLIENT_BUSY_WRITE)`. That the page
source keeps its items is the model's choice (log 29). -/
def Obligations.SeqStartDone : Prop :=
  (∀ q v resume, decodeReq q v = .ok (.seqStart resume) ↔
    q = true ∧ v = (if resume then 0x00000109 else 0x00000009)) ∧
  ∀ (s : State) (resume : Bool), s.cfg.seqPresent = true →
    (s.link.lstate = .idle → s.seq.sbusy = false →
      ∃ r, exec (.seqStart resume) s = .next { s with
        link := { s.link with
          req := r, opr := some (.seqStart resume), result := .ok, rv := true, lstate := .idle
          ackout := none }
        seq := { Session.reset with
          ct := s.seq.ct, ident := s.seq.ident, sbusy := true, resume := resume
          sstate := (if resume then .handshaking else .disconnected)
          step := (if resume then .identify else .probe) } }) ∧
    (s.link.lstate ≠ .idle ∨ s.seq.sbusy = true →
      RecordsFault .clientBusyWrite s (exec (.seqStart resume) s))

/-- R163, R113, R340: an operation no word may ask for (a length out of range, SEQ_START without a
Sequencer) finishes with BAD_REQUEST and sends nothing. -/
def Obligations.IllFormedIsBadRequest : Prop :=
  ∀ (s : State) (i : Instr), s.link.lstate = .idle → s.seq.sbusy = false →
    ¬ i.WellFormed s.cfg.seqPresent →
    ∃ r, exec i s = .next { s with
      link := { s.link with
        req := r, result := .badRequest, rv := true, lstate := .idle, ackout := none } }

/-- R163, R35, R281, R344: a request that meets a busy engine, and a SEQ_START that meets a running
session, is `fault(CLIENT_BUSY_WRITE)` and nothing else happens. That a request of the Sequencer
would fault likewise is the model's reading (log 21). -/
def Obligations.BusyRequestFaults : Prop :=
  ∀ (s : State) (i : Instr),
    s.link.lstate ≠ .idle ∨ (s.seq.sbusy = true ∧ ∃ r, i = .seqStart r) →
    RecordsFault .clientBusyWrite s (exec i s)

/-- R163, R91, R98: the frame of the accepting step, over all operations: no byte is sent, no buffer
and no budget changes, only FLUSH_RX empties the receive FIFO, only SET_EVEN_PARITY touches the
parity, only SEQ_START touches the Sequencer (R281), and the environment stays. That SEQ_START leaves the page
source as it is, is the model's choice (log 29). -/
def Obligations.AcceptingStepFrame : Prop :=
  ∀ (i : Instr) (s t : State), exec i s = .next t →
    t.chan.txlog = s.chan.txlog ∧ t.chan.ticks = s.chan.ticks ∧
    (∀ k, t.link.txbuf.read k = s.link.txbuf.read k) ∧
    (∀ k, t.link.rxbuf.read k = s.link.rxbuf.read k) ∧
    t.link.budget = s.link.budget ∧ t.link.lastRx = s.link.lastRx ∧
    (i ≠ .flushRx → t.chan.rxfifo = s.chan.rxfifo) ∧
    (i ≠ .setEvenParity → t.chan.chpar = s.chan.chpar ∧ t.link.parEven = s.link.parEven) ∧
    ((∀ r, i ≠ .seqStart r) → t.seq = s.seq) ∧
    t.cfg = s.cfg ∧ t.source = s.source ∧ t.turns = s.turns ∧ t.portOut = s.portOut

/-! ### The engine's steps (40_link_ops.md section 2) -/

/-- R164: one byte leaves per step, in `TXQ` order; after the last the wait starts with `ACKB`. -/
def Obligations.TransmitStep : Prop :=
  ∀ (s : State) (b : Byte), s.link.lstate = .tx → s.link.txq[s.link.txptr]? = some b →
    engineStep s = .next { s with
      chan := { s.chan with txlog := s.chan.txlog ++ [b] }
      link := { s.link with
        txptr := s.link.txptr + 1
        polls := (if s.link.txptr + 1 = s.link.txq.length then s.link.ackb else s.link.polls)
        lstate := (if s.link.txptr + 1 = s.link.txq.length then .ackwait else .tx) } }

/-- R165, R161, R167, R349, R39: with polls left the first byte in the FIFO decides: ACK finishes `OK`;
NACK or another byte re-issues the same bytes while an attempt is left and otherwise finishes with
its code. Exactly one byte is taken. That a re-issue clears `ACKOUT` is the model's reading (log 14). -/
def Obligations.AckWaitTakesFirstByte : Prop :=
  ∀ (s : State) (b : Byte) (rest : List Byte), s.link.lstate = .ackwait → s.link.polls ≠ 0 →
    s.chan.rxfifo = b :: rest →
    engineStep s = .next { s with
      chan := { s.chan with rxfifo := rest }
      link :=
        if b ≠ 0x79 ∧ 1 < s.link.attempts then
          { s.link with
            lastRx := b, attempts := s.link.attempts - 1, txptr := 0, lstate := .tx, ackout := none }
        else
          { s.link with
            lastRx := b, rv := true, lstate := .idle, ackout := none
            result := (if b = 0x79 then .ok else if b = 0x1F then .nack else .unexpected) } }

/-- R166, R167, R349: an empty FIFO costs one tick and one poll; with no poll left the wait times out
whether or not a byte is there, and a byte there stays. That a re-issue clears `ACKOUT` is the model's
reading (log 14); `ticks` counts the tick events (log 19). -/
def Obligations.AckWaitWithoutByte : Prop :=
  ∀ s : State, s.link.lstate = .ackwait →
    (s.link.polls ≠ 0 → s.chan.rxfifo = [] → engineStep s = .next { s with
      chan := { s.chan with ticks := s.chan.ticks + 1 }
      link := { s.link with polls := s.link.polls - 1 } }) ∧
    (s.link.polls = 0 → engineStep s = .next { s with
      link :=
        if 1 < s.link.attempts then
          { s.link with attempts := s.link.attempts - 1, txptr := 0, lstate := .tx, ackout := none }
        else
          { s.link with result := .timeout, rv := true, lstate := .idle, ackout := none } })

/-- R168, R391, R40: a byte there is stored at `RXBUF[RXCNT]`, every other element keeps its value, the
per-byte budget starts again, and the last one finishes `OK`. With none there the read times out once
its budget is used up and ticks before; an unbounded read ticks for ever. A byte that is there only
after the last tick of the budget is stored (R168) or stays while the read times out (R391): the two
rules contradict each other and the configuration chooses (log 28). `ticks` counts the tick events
(log 19). -/
def Obligations.ReceiveStep : Prop :=
  ∀ s : State, s.link.lstate = .rx →
    (∀ (b : Byte) (rest : List Byte), s.link.rxcnt < 256 → s.chan.rxfifo = b :: rest →
      (s.cfg.readSeesLastTick = true ∨ s.cfg.readPolls = none ∨ s.cfg.readPolls = some 0 ∨
        s.link.rxpolls ≠ 0) →
      ∃ m : Memory, m.read s.link.rxcnt = some b ∧
        (∀ k, k ≠ s.link.rxcnt → m.read k = s.link.rxbuf.read k) ∧
        engineStep s = .next { s with
          chan := { s.chan with rxfifo := rest }
          link := { s.link with
            rxbuf := m, rxcnt := s.link.rxcnt + 1, rxpolls := s.cfg.readPolls.getD 0
            result := (if s.link.rxcnt + 1 = s.link.rxn then .ok else s.link.result)
            rv := (if s.link.rxcnt + 1 = s.link.rxn then true else s.link.rv)
            lstate := (if s.link.rxcnt + 1 = s.link.rxn then .idle else .rx)
            ackout := (if s.link.rxcnt + 1 = s.link.rxn then none else s.link.ackout) } }) ∧
    (∀ k, s.cfg.readSeesLastTick = false → s.cfg.readPolls = some k → k ≠ 0 →
      s.link.rxpolls = 0 → engineStep s = .next { s with
        link := { s.link with result := .timeout, rv := true, lstate := .idle, ackout := none } }) ∧
    (∀ k, s.chan.rxfifo = [] → s.cfg.readPolls = some k → s.link.rxpolls = 0 →
      engineStep s = .next { s with
        link := { s.link with result := .timeout, rv := true, lstate := .idle, ackout := none } }) ∧
    (∀ k, s.chan.rxfifo = [] → s.cfg.readPolls = some k → s.link.rxpolls ≠ 0 →
      engineStep s = .next { s with
        chan := { s.chan with ticks := s.chan.ticks + 1 }
        link := { s.link with rxpolls := s.link.rxpolls - 1 } }) ∧
    (s.chan.rxfifo = [] → s.cfg.readPolls = none → engineStep s = .next { s with
      chan := { s.chan with ticks := s.chan.ticks + 1 } })

/-! ### Whole operations: runs of the machine from the request -/

/-- R170, R164 to R167, R411: a PROBE on a silent Device sends `7F` once and times out after
`SHORT_POLLS` ticks, in 1 + 1 + `SHORT_POLLS` + 1 steps. The list of turns is the form of the model
(log 4); `ticks` counts the tick events (log 19). -/
def Obligations.SilentProbeTimesOut : Prop :=
  ∀ s : State, legalParameters s.cfg → s.link.lstate = .idle → s.seq.sbusy = false →
    s.chan.rxfifo = [] → s.turns = [.client (.regWrite 0 0x00000001)] →
    ∃ t, Host.Core.run core (1 + 1 + s.cfg.shortPolls.toNat + 1) s = .next t ∧
      t.link.lstate = .idle ∧ t.link.result = .timeout ∧ t.link.rv = true ∧
      t.link.lastRx = s.link.lastRx ∧ t.chan.rxfifo = [] ∧
      t.chan.txlog = s.chan.txlog ++ [0x7F] ∧
      t.chan.ticks = s.chan.ticks + s.cfg.shortPolls.toNat ∧ t.faults = s.faults

/-- R172, R173, R411: a SEND_CMD on a silent Device sends the pair `CMD_ATTEMPTS` times, ticks
`CMD_ATTEMPTS × LONG_POLLS` times and then times out. The list of turns is the form of the model (log
4); `ticks` counts the tick events (log 19). -/
def Obligations.SilentCommandUsesItsBound : Prop :=
  ∀ (s : State) (c : Byte), legalParameters s.cfg → s.link.lstate = .idle → s.seq.sbusy = false →
    s.chan.rxfifo = [] → s.turns = [.client (.regWrite 0 (encode (.sendCmd c)))] →
    ∃ t, Host.Core.run core (1 + s.cfg.cmdAttempts * (2 + s.cfg.longPolls.toNat + 1)) s = .next t ∧
      t.link.lstate = .idle ∧ t.link.result = .timeout ∧
      t.chan.txlog = s.chan.txlog ++ (List.replicate s.cfg.cmdAttempts [c, 0xFF ^^^ c]).flatten ∧
      t.chan.ticks = s.chan.ticks + s.cfg.cmdAttempts * s.cfg.longPolls.toNat ∧
      t.faults = s.faults

/-- R176 to R178, R160, R390: a SEND_FRAME whose answer is already in the FIFO sends the payload and
its checksum once and ends with the first byte's verdict, however old that byte is; the bytes behind
it stay. The list of turns is the form of the model (log 4); `ticks` counts the tick events (log 19). -/
def Obligations.FrameSentOnceAndFirstByteDecides : Prop :=
  ∀ (s : State) (n : BitVec 9) (p : List Byte) (b : Byte) (rest : List Byte),
    legalParameters s.cfg → s.link.lstate = .idle → s.seq.sbusy = false →
    1 ≤ n.toNat → n.toNat ≤ 257 → p.length = n.toNat →
    (∀ i < n.toNat, s.link.txbuf.read i = p[i]?) → s.cfg.longPolls ≠ 0 →
    s.chan.rxfifo = b :: rest → s.turns = [.client (.regWrite 0 (encode (.sendFrame n)))] →
    ∃ t, Host.Core.run core (1 + (n.toNat + 1) + 1) s = .next t ∧
      t.link.lstate = .idle ∧ t.link.result = (classify b).result ∧ t.link.lastRx = b ∧
      t.chan.txlog = s.chan.txlog ++ p ++ [cks p] ∧ t.chan.rxfifo = rest ∧
      t.chan.ticks = s.chan.ticks ∧ (∀ k, t.link.txbuf.read k = s.link.txbuf.read k) ∧
      t.faults = s.faults

/-- R180, R181, R183, R411: on a silent channel a WAIT_ACK of budget `k` takes `k` ticks and times out
with nothing sent; a READ_BYTE bounded by `k` polls takes `k` ticks and times out with nothing stored.
The list of turns is the form of the model (log 4); `ticks` counts the tick events (log 19). -/
def Obligations.SilentWaitAndReadTimeOut : Prop :=
  ∀ s : State, legalParameters s.cfg → s.link.lstate = .idle → s.seq.sbusy = false →
    s.chan.rxfifo = [] →
    (s.turns = [.client (.regWrite 0 0x00000004)] →
      ∃ t, Host.Core.run core (1 + s.link.budget.toNat + 1) s = .next t ∧
        t.link.lstate = .idle ∧ t.link.result = .timeout ∧ t.chan.txlog = s.chan.txlog ∧
        t.chan.ticks = s.chan.ticks + s.link.budget.toNat ∧ t.faults = s.faults) ∧
    (∀ k, s.cfg.readPolls = some k → s.turns = [.client (.regWrite 0 0x00000005)] →
      ∃ t, Host.Core.run core (1 + (k + 1)) s = .next t ∧
        t.link.lstate = .idle ∧ t.link.result = .timeout ∧ t.link.rxcnt = 0 ∧
        (∀ i, t.link.rxbuf.read i = s.link.rxbuf.read i) ∧
        t.chan.ticks = s.chan.ticks + k ∧ t.faults = s.faults)

/-- R185, R186, R82, R168: a READ_BYTES of `n` with `n` bytes in the FIFO takes exactly those, in
order, into `RXBUF[0..n)`, raw, and finishes `OK`; the rest of the FIFO and the other elements stay.
The list of turns is the form of the model (log 4); `ticks` counts the tick events (log 19). -/
def Obligations.ReadTakesBytesInOrder : Prop :=
  ∀ (s : State) (n : BitVec 9) (bs rest : List Byte),
    legalParameters s.cfg → s.link.lstate = .idle → s.seq.sbusy = false →
    1 ≤ n.toNat → n.toNat ≤ 256 → bs.length = n.toNat → s.chan.rxfifo = bs ++ rest →
    s.turns = [.client (.regWrite 0 (encode (.readBytes n)))] →
    ∃ t, Host.Core.run core (1 + n.toNat) s = .next t ∧
      t.link.lstate = .idle ∧ t.link.result = .ok ∧ t.link.rxcnt = n.toNat ∧
      (∀ k < n.toNat, t.link.rxbuf.read k = bs[k]?) ∧
      (∀ k, n.toNat ≤ k → t.link.rxbuf.read k = s.link.rxbuf.read k) ∧
      t.link.lastRx = s.link.lastRx ∧ t.chan.rxfifo = rest ∧ t.chan.ticks = s.chan.ticks ∧
      t.faults = s.faults

/-! ### The machine as a whole -/

/-- R163, R113, R348: a step whose turn is the client's write of a request word to an idle block is
exactly the decoded operation, and of a reserved word `BAD_REQUEST` with nothing sent. That the turn
is taken off the list of turns is the model's (log 4). -/
def Obligations.StepRunsTheRequest : Prop :=
  ∀ (s : State) (v : Word) (rest : List Turn), legalParameters s.cfg →
    s.link.lstate = .idle → s.seq.sbusy = false → s.turns = .client (.regWrite 0 v) :: rest →
    (∀ i, decodeReq s.cfg.seqPresent v = .ok i → step s = exec i { s with turns := rest }) ∧
    (∀ e, decodeReq s.cfg.seqPresent v = .error e → ∃ r, step s = .next { s with
      turns := rest
      link := { s.link with
        req := r, result := .badRequest, rv := true, lstate := .idle, ackout := none } })

/-- The invariant holds after reset. Its free inputs and open parameters are choices of the model (log
1, log 5). -/
def Obligations.ResetSatisfiesTheInvariant : Prop := State.reset.Inv

/-- The invariant (canonical arrays within their sizes, the engine's registers consistent with the
operation in flight, the session in a position of its procedure, `FAULTS` a set) is kept by every
step, of whichever agent. -/
def Obligations.EveryStepKeepsTheInvariant : Prop :=
  ∀ s t : State, s.Inv → step s = .next t → t.Inv

/-- R169, R344, R347: with legal parameters no step of a state that meets the invariant stops the
machine: there is always a next state. An idle block with nothing enabled stays as it is (log 12). -/
def Obligations.TheMachineNeverStops : Prop :=
  ∀ s : State, s.Inv → legalParameters s.cfg → ∃ t, step s = .next t

/-- R346: a run with an excluded parameter is refused, and nothing else is: no instruction, and not
`RESTART_LIMIT = some 0`. That the run is refused at every step is the model's reading (log 10). -/
def Obligations.ExcludedParametersRefused : Prop :=
  ∀ s : State,
    (s.cfg.cmdAttempts = 0 ∨ s.cfg.stepRetryLimit = some 0 ∨ s.cfg.probeLimit = some 0 →
      step s = .refused .illegalParameter) ∧
    (∀ r, step s = .refused r →
      s.cfg.cmdAttempts = 0 ∨ s.cfg.stepRetryLimit = some 0 ∨ s.cfg.probeLimit = some 0)

/-- R50, R49, R164, R6: the histories start empty, and over every step, reset included, `TXLOG` changes only
in a transmit step of the engine, which appends the byte of `TXQ` at `TXPTR`; nothing leaves `FAULTS`;
the parameters stay. -/
def Obligations.HistoryOnlyGrows : Prop :=
  (State.reset.chan.txlog = [] ∧ State.reset.faults = []) ∧
  ∀ s t : State, step s = .next t →
    (t.chan.txlog = s.chan.txlog ∨
      s.link.lstate = .tx ∧ ∃ b, s.link.txq[s.link.txptr]? = some b ∧
        t.chan.txlog = s.chan.txlog ++ [b]) ∧
    (∀ r, r ∈ s.faults → r ∈ t.faults) ∧ t.cfg = s.cfg

/-- R37, R38, R39: over every step that is not a reset, `PAR_EVEN` and `RV` stay 1 once they are, and
`LAST_RX` changes only where an acknowledgement wait takes a byte, and is then that byte. -/
def Obligations.StatusBitsBetweenResets : Prop :=
  ∀ s t : State, step s = .next t → s.turns.head? ≠ some .reset →
    (s.link.parEven = true → t.link.parEven = true) ∧ (s.link.rv = true → t.link.rv = true) ∧
    (t.link.lastRx ≠ s.link.lastRx →
      s.link.lstate = .ackwait ∧ s.chan.rxfifo = t.link.lastRx :: t.chan.rxfifo)

/-- R380, R381, R67: the reset event sets the block's registers and internal state and touches neither
the channel nor the histories; a run of an operation is abandoned with no result. That the event is a
turn of a list is the form of the model (log 4), and that it leaves the page source as it is, is the
model's choice (log 29). -/
def Obligations.ResetEventEffect : Prop :=
  ∀ (s : State) (rest : List Turn), legalParameters s.cfg → s.turns = .reset :: rest →
    ∃ t, step s = .next t ∧ statusWord t = 0 ∧ seqStatusWord t = 0 ∧ t.link.lstate = .idle ∧
      t.link.rxcnt = 0 ∧ t.link.req = 0 ∧ t.link.budget = 0 ∧ (∀ i, t.link.txbuf.read i = none) ∧
      t.link.opr = none ∧
      t.link.txq = [] ∧ t.link.txptr = 0 ∧ t.link.ackb = 0 ∧ t.link.polls = 0 ∧
      t.link.attempts = 0 ∧ t.link.rxn = 0 ∧ t.link.rxpolls = 0 ∧ t.link.ackout = none ∧
      t.seq.failAddr = 0 ∧ t.seq.flashKb = 0 ∧ t.seq.startAddr = 0 ∧ t.seq.ctValid = 0 ∧
      t.seq.idLen = 0 ∧ t.seq.tries = 0 ∧ t.seq.restarts = 0 ∧ t.seq.step = .none ∧
      t.seq.sub = 0 ∧ t.seq.resume = false ∧ t.seq.probes = 0 ∧ t.seq.latch = none ∧
      t.chan = s.chan ∧ t.faults = s.faults ∧ t.source = s.source ∧ t.cfg = s.cfg ∧
      t.turns = rest

/-- R5, R32, R51, R53, R169, R280, R283, R145: what moves in a step: a client's turn is its one
access; a Device byte joins the tail of `RXFIFO` in any state; an item of the page source joins the
tail of its stream; a client that waits for the idle engine lets a busy one move and goes on at an
idle one; the block's own move is the engine's while it is busy, else the Sequencer's while a session
runs, else nothing changes. That these are turns of a list, what a wait does, and that nothing changes
where nothing is enabled, is the model's choice (log 4, log 23, log 12). -/
def Obligations.WhoMoves : Prop :=
  ∀ (s : State) (rest : List Turn), legalParameters s.cfg →
    (∀ a, s.turns = .client a :: rest → step s = access a { s with turns := rest }) ∧
    (∀ b, s.turns = .device b :: rest → step s = .next { s with
      turns := rest, chan := { s.chan with rxfifo := s.chan.rxfifo ++ [b] } }) ∧
    (∀ it, s.turns = .source it :: rest → step s = .next { s with
      turns := rest, source := s.source ++ [it] }) ∧
    (s.turns = .waitIdle :: rest →
      (s.link.lstate ≠ .idle → step s = engineStep s) ∧
      (s.link.lstate = .idle → step s = .next { s with turns := rest })) ∧
    (s.turns = .run :: rest ∨ s.turns = [] ∧ rest = [] →
      (s.link.lstate ≠ .idle → step s = engineStep { s with turns := rest }) ∧
      (s.link.lstate = .idle → s.seq.sbusy = true → step s = seqStep { s with turns := rest }) ∧
      (s.link.lstate = .idle → s.seq.sbusy = false → step s = .next { s with turns := rest }))

/-! ### The client port (10_state.md) -/

/-- R32 to R34, R41, R44, R340: what a client reads in the registers of the engine: `REQ` reads 0,
`BUDGET` its value, and `STATUS` field by field. The list of values read is of the model (log 19). -/
def Obligations.StatusFields : Prop :=
  ∀ s : State,
    let reads : Nat → Word → Prop := fun n w =>
      access (.regRead n) s = .next { s with portOut := s.portOut ++ [.word w] }
    let v := (statusWord s).toNat
    reads 0 0 ∧ reads 1 s.link.budget ∧ reads 2 (statusWord s) ∧
    (v % 2 = 1 ↔ s.link.lstate ≠ .idle) ∧
    v / 2 % 8 = (match s.link.result with
      | .ok => 0 | .nack => 1 | .unexpected => 2 | .timeout => 3 | .badRequest => 4) ∧
    (v / 2 ^ 4 % 2 = 1 ↔ s.link.parEven = true) ∧ (v / 2 ^ 5 % 2 = 1 ↔ s.link.rv = true) ∧
    v / 2 ^ 6 % 4 = 0 ∧ v / 2 ^ 8 % 256 = s.link.lastRx.toNat ∧
    (s.link.rxcnt ≤ 256 → v / 2 ^ 16 % 512 = s.link.rxcnt) ∧ v / 2 ^ 25 = 0

/-- R32, R41, R54 to R62: what a client reads in the registers of the Sequencer: `SEQ_STATUS` field by
field, then `FAIL_ADDR`, `FLASH_KB`, `START_ADDR`, `CT_VALID`, `ID_LEN`, `TRIES` and `RESTARTS` by their
numbers, the unused upper bits 0. The list of values read is of the model (log 19). -/
def Obligations.SeqStatusFields : Prop :=
  ∀ s : State, s.cfg.seqPresent = true →
    let reads : Nat → Word → Prop := fun n w =>
      access (.regRead n) s = .next { s with portOut := s.portOut ++ [.word w] }
    let v := (seqStatusWord s).toNat
    reads 4 (seqStatusWord s) ∧ reads 5 s.seq.failAddr ∧
    reads 6 (BitVec.ofNat 32 s.seq.flashKb.toNat) ∧ reads 7 s.seq.startAddr ∧
    reads 8 (BitVec.ofNat 32 s.seq.ctValid.toNat) ∧ reads 9 (BitVec.ofNat 32 s.seq.idLen.toNat) ∧
    reads 10 s.seq.tries ∧ reads 11 s.seq.restarts ∧
    v % 16 = (match s.seq.sstate with
      | .disconnected => 0 | .handshaking => 1 | .identified => 2 | .flashSizeKnown => 3
      | .erased => 4 | .programming => 5 | .jumped => 6 | .failed => 7) ∧
    (v / 2 ^ 4 % 2 = 1 ↔ s.seq.sbusy = true) ∧ (v / 2 ^ 5 % 2 = 1 ↔ s.seq.sdone = true) ∧
    (v / 2 ^ 6 % 2 = 1 ↔ s.seq.startValid = true) ∧ (v / 2 ^ 7 % 2 = 1 ↔ s.seq.goIssued = true) ∧
    v / 2 ^ 8 % 16 = (match s.seq.failStep with
      | .none => 0 | .probe => 1 | .identify => 2 | .flashSize => 3 | .unprotect => 4
      | .erase => 5 | .pageWrite => 6 | .go => 7 | .sourceError => 8 | .restartLimit => 9) ∧
    v / 2 ^ 12 % 8 = (match s.seq.failResult with
      | .ok => 0 | .nack => 1 | .unexpected => 2 | .timeout => 3 | .badRequest => 4) ∧
    (v / 2 ^ 15 % 2 = 1 ↔ s.seq.fsizeValid = true) ∧ v / 2 ^ 16 = 0

/-- R33, R35, R42, R91, R280, R344, R394: a client write to `REQ`, `BUDGET` or an element of `TXBUF` while
the engine is busy or a session runs is `fault(CLIENT_BUSY_WRITE)` with no other effect; on an idle
block without a session a write to `BUDGET` or to an element of `TXBUF` stores, marks the element
written, and does nothing else. -/
def Obligations.ClientWrites : Prop :=
  ∀ s : State,
    (s.link.lstate ≠ .idle ∨ s.seq.sbusy = true →
      (∀ v, RecordsFault .clientBusyWrite s (access (.regWrite 0 v) s)) ∧
      (∀ v, RecordsFault .clientBusyWrite s (access (.regWrite 1 v) s)) ∧
      (∀ i b, i < 257 → RecordsFault .clientBusyWrite s (access (.arrWrite .txbuf i b) s))) ∧
    (s.link.lstate = .idle → s.seq.sbusy = false →
      (∀ v, access (.regWrite 1 v) s = .next { s with link := { s.link with budget := v } }) ∧
      (∀ i b, i < 257 → ∃ m : Memory, m.read i = some b ∧
        (∀ k, k ≠ i → m.read k = s.link.txbuf.read k) ∧
        access (.arrWrite .txbuf i b) s = .next { s with link := { s.link with txbuf := m } }))

/-- R32, R345, R66, R80: the accesses that are `fault(BAD_REGISTER)` whatever the state: an unassigned or
absent register, a write to a read-only register, an absent array or an index outside it, a write to
a read-only array. That an index outside `TXBUF` is looked at before the busy rule, and one outside
`RXBUF`, `CT` or `ID` before the rules on elements without a value, is the model's choice (log 17). -/
def Obligations.BadAccessesFault : Prop :=
  ∀ s : State,
    (∀ n, n = 3 ∨ 12 ≤ n ∨ (4 ≤ n ∧ s.cfg.seqPresent = false) →
      RecordsFault .badRegister s (access (.regRead n) s)) ∧
    (∀ n v, 2 ≤ n → RecordsFault .badRegister s (access (.regWrite n v) s)) ∧
    (∀ a i,
      (a = .txbuf ∧ 257 ≤ i) ∨ (a = .rxbuf ∧ 256 ≤ i) ∨ (a = .ct ∧ 16 ≤ i) ∨
        (a = .ident ∧ 256 ≤ i) ∨ ((a = .ct ∨ a = .ident) ∧ s.cfg.seqPresent = false) →
      RecordsFault .badRegister s (access (.arrRead a i) s)) ∧
    (∀ a i b, a ≠ .txbuf ∨ 257 ≤ i → RecordsFault .badRegister s (access (.arrWrite a i b) s))

/-- R91, R169, R35: a client read changes nothing of the block: it hands a value to the client or
records a fault. The list of values read is of the model (log 19). -/
def Obligations.ReadsChangeNothing : Prop :=
  ∀ (s : State) (a : Access), (∃ n, a = .regRead n) ∨ (∃ r i, a = .arrRead r i) →
    (∃ v, access a s = .next { s with portOut := s.portOut ++ [v] }) ∨
      ∃ r, RecordsFault r s (access a s)

/-- R42, R43, R63, R64, R82: what a client read of an array element gives: its value where the rules
give it one, and the array's own fault where they do not. `ID` is readable while the session is past
its identify step and has not failed; after a failure see log 16. The list of values read is of the
model (log 19). -/
def Obligations.ArrayReads : Prop :=
  ∀ (s : State) (i : Nat),
    (∀ b, i < 257 → s.link.txbuf.read i = some b →
      access (.arrRead .txbuf i) s = .next { s with portOut := s.portOut ++ [.byte b] }) ∧
    (i < 257 → s.link.txbuf.read i = none →
      RecordsFault .txbufUnwritten s (access (.arrRead .txbuf i) s)) ∧
    (∀ b, i < 256 → i < s.link.rxcnt → s.link.rxbuf.read i = some b →
      access (.arrRead .rxbuf i) s = .next { s with portOut := s.portOut ++ [.byte b] }) ∧
    (i < 256 → s.link.rxcnt ≤ i →
      RecordsFault .rxbufUnwritten s (access (.arrRead .rxbuf i) s)) ∧
    (∀ b, s.cfg.seqPresent = true → i < 16 → s.seq.ctValid.getLsbD i = true →
      s.seq.ct.read i = some b →
      access (.arrRead .ct i) s = .next { s with portOut := s.portOut ++ [.byte b] }) ∧
    (s.cfg.seqPresent = true → i < 16 → s.seq.ctValid.getLsbD i = false →
      RecordsFault .ctUnfilled s (access (.arrRead .ct i) s)) ∧
    (∀ b, s.cfg.seqPresent = true → i < 256 → i < idBytes s.cfg s.seq.idLen →
      s.seq.sstate ∉ [.disconnected, .handshaking, .failed] → s.seq.ident.read i = some b →
      access (.arrRead .ident i) s = .next { s with portOut := s.portOut ++ [.byte b] }) ∧
    (s.cfg.seqPresent = true → i < 256 →
      idBytes s.cfg s.seq.idLen ≤ i ∨ s.seq.sstate ∈ [.disconnected, .handshaking] →
      RecordsFault .idUnwritten s (access (.arrRead .ident i) s))

/-! ### The session sequencer (46_sequencer.md) -/

/-- R286, R288: a failed attempt counts in `TRIES`; at the limit the session fails for good with the
step, the link's result and the address, else the step is redone from its first link operation. The
new count `w` is `TRIES + 1`; past 0xFFFFFFFF it is any value (log 13). -/
def Obligations.FailedAttemptIsCounted : Prop :=
  ∀ (s : State) (st : FailStep) (a : Word), ∃ (w : Word) (n : Nat),
    (s.seq.tries ≠ 0xFFFFFFFF → w.toNat = s.seq.tries.toNat + 1 ∧ n = s.freeCount) ∧
    (∀ k, s.cfg.stepRetryLimit = some k → k ≤ w.toNat →
      s.stepFail st a = { s with
        freeCount := n
        seq := { s.seq with
          tries := w, sstate := .failed, failStep := st, failResult := s.link.result
          failAddr := a, sdone := true, sbusy := false, step := .done } }) ∧
    ((∀ k, s.cfg.stepRetryLimit = some k → w.toNat < k) →
      s.stepFail st a = { s with freeCount := n, seq := { s.seq with tries := w, sub := 0 } })

/-- R289, R287: step PROBE: the flush, then probes; an ACK starts IDENTIFY, a failure probes again
without a flush until `PROBE_LIMIT` probes have failed. How the procedure divides into steps of the
model is its choice (log 18). -/
def Obligations.ProbeStepProcedure : Prop :=
  ∀ s : State, s.link.lstate = .idle → s.seq.step = .probe →
    (s.seq.sub = 0 → seqStep s = exec .flushRx { s with seq := { s.seq with sub := 1 } }) ∧
    (s.seq.sub = 1 → seqStep s = exec .probe { s with seq := { s.seq with sub := 2 } }) ∧
    (s.seq.sub = 2 → s.link.result = .ok → seqStep s = .next { s with
      seq := { s.seq with sstate := .handshaking, step := .identify, sub := 0, tries := 0 } }) ∧
    (s.seq.sub = 2 → s.link.result ≠ .ok →
      (∀ k, s.cfg.probeLimit = some k → s.seq.probes + 1 < k) → seqStep s = .next { s with
        seq := { s.seq with probes := s.seq.probes + 1, sub := 1 } }) ∧
    (∀ k, s.seq.sub = 2 → s.link.result ≠ .ok → s.cfg.probeLimit = some k →
      k ≤ s.seq.probes + 1 → seqStep s = .next { s with
        seq := { s.seq with
          probes := s.seq.probes + 1, sstate := .failed, failStep := .probe
          failResult := s.link.result, failAddr := 0, sdone := true, sbusy := false
          step := .done } })

/-- R291, R292, R60, R63: the GET half of IDENTIFY, by the operations issued so far: an attempt starts
with `CT_VALID` and `ID_LEN` 0 and the GET command; the count goes to `CT[0]`, and up to 14 the
version is read next; the version goes to `CT[1]` and `n` opcodes are read, or with none the table is
complete; the opcodes go to `CT[2]` on; exactly the entries 0 to n + 1 become valid and the trailing
acknowledgement is awaited with the long budget. How the procedure divides into steps of the model is
its choice (log 18). -/
def Obligations.GetHalfOfIdentify : Prop :=
  ∀ s : State, s.link.lstate = .idle → s.seq.step = .identify →
    (s.seq.sub = 0 → seqStep s = exec (.sendCmd s.cfg.getOpcode) { s with
      seq := { s.seq with ctValid := 0, idLen := 0, sub := 1 } }) ∧
    (s.seq.sub = 1 → s.link.result = .ok →
      seqStep s = exec .readByte { s with seq := { s.seq with sub := 2 } }) ∧
    (∀ n, s.seq.sub = 2 → s.link.result = .ok → s.link.rxbuf.read 0 = some n → n.toNat ≤ 14 →
      ∃ m : Memory, m.read 0 = some n ∧ (∀ k, k ≠ 0 → m.read k = s.seq.ct.read k) ∧
        seqStep s = exec .readByte { s with seq := { s.seq with ct := m, sub := 3 } }) ∧
    (∀ n v, s.seq.sub = 3 → s.link.result = .ok → s.seq.ct.read 0 = some n →
      s.link.rxbuf.read 0 = some v → n.toNat ≤ 14 →
      ∃ m : Memory, m.read 1 = some v ∧ (∀ k, k ≠ 1 → m.read k = s.seq.ct.read k) ∧
        (1 ≤ n.toNat → seqStep s = exec (.readBytes (BitVec.ofNat 9 n.toNat)) { s with
          seq := { s.seq with ct := m, sub := 4 } }) ∧
        (n.toNat = 0 → seqStep s = exec .waitAck { s with
          link := { s.link with budget := s.cfg.longPolls }
          seq := { s.seq with ct := m, ctValid := 0b11, sub := 5 } })) ∧
    (∀ n, s.seq.sub = 4 → s.link.result = .ok → s.seq.ct.read 0 = some n → n.toNat ≤ 14 →
      (∀ i < n.toNat, (s.link.rxbuf.read i).isSome) →
      ∃ (m : Memory) (v : BitVec 16),
        (∀ i < n.toNat, m.read (2 + i) = s.link.rxbuf.read i) ∧
        (∀ k, k < 2 ∨ 2 + n.toNat ≤ k → m.read k = s.seq.ct.read k) ∧
        (∀ i < 16, v.getLsbD i = decide (i ≤ n.toNat + 1)) ∧
        seqStep s = exec .waitAck { s with
          link := { s.link with budget := s.cfg.longPolls }
          seq := { s.seq with ct := m, ctValid := v, sub := 5 } })

/-- R291, R293, R61: the GET-ID half of IDENTIFY: the command of `CT[4]`; `ID_LEN` takes the length
byte and `ID_BYTES` of it are read; they go to `ID[0]` on; the trailing acknowledgement is awaited
with the long budget; then FLASH_SIZE starts in IDENTIFIED. How the procedure divides into steps of
the model is its choice (log 18). -/
def Obligations.GetIdHalfOfIdentify : Prop :=
  ∀ s : State, s.link.lstate = .idle → s.seq.step = .identify → s.link.result = .ok →
    (∀ op, s.seq.sub = 5 → s.seq.ctValid.getLsbD 4 = true → s.seq.ct.read 4 = some op →
      seqStep s = exec (.sendCmd op) { s with seq := { s.seq with sub := 6 } }) ∧
    (s.seq.sub = 6 → seqStep s = exec .readByte { s with seq := { s.seq with sub := 7 } }) ∧
    (∀ l, s.seq.sub = 7 → s.link.rxbuf.read 0 = some l →
      1 ≤ idBytes s.cfg l → idBytes s.cfg l ≤ 256 →
      seqStep s = exec (.readBytes (BitVec.ofNat 9 (idBytes s.cfg l))) { s with
        seq := { s.seq with idLen := l, sub := 8 } }) ∧
    (s.seq.sub = 8 → (∀ i < idBytes s.cfg s.seq.idLen, (s.link.rxbuf.read i).isSome) →
      ∃ m : Memory,
        (∀ i < idBytes s.cfg s.seq.idLen, m.read i = s.link.rxbuf.read i) ∧
        (∀ k, idBytes s.cfg s.seq.idLen ≤ k → m.read k = s.seq.ident.read k) ∧
        seqStep s = exec .waitAck { s with
          link := { s.link with budget := s.cfg.longPolls }
          seq := { s.seq with ident := m, sub := 9 } }) ∧
    (s.seq.sub = 9 → seqStep s = .next { s with
      seq := { s.seq with sstate := .identified, step := .flashSize, sub := 0, tries := 0 } })

/-- R291, R292, R293, R345: what goes wrong in IDENTIFY: a failed operation is a failed attempt of the
step; a count above 14 is `fault(CT_OVERFLOW)` and an `ID_BYTES` outside 1 to 256 is `fault(ID_BAD)`,
and the step stays where it is. That `CT[0]` and `ID_LEN` are stored before the fault is the model's
reading (log 7). How the procedure divides into steps of the model is its choice (log 18). -/
def Obligations.IdentifyFailures : Prop :=
  ∀ s : State, s.link.lstate = .idle → s.seq.step = .identify →
    (1 ≤ s.seq.sub → s.seq.sub ≤ 9 → s.link.result ≠ .ok →
      seqStep s = .next (s.stepFail .identify 0)) ∧
    (∀ n, s.seq.sub = 2 → s.link.result = .ok → s.link.rxbuf.read 0 = some n → 14 < n.toNat →
      ∃ m : Memory, m.read 0 = some n ∧ (∀ k, k ≠ 0 → m.read k = s.seq.ct.read k) ∧
        RecordsFault .ctOverflow { s with seq := { s.seq with ct := m } } (seqStep s)) ∧
    (∀ l, s.seq.sub = 7 → s.link.result = .ok → s.link.rxbuf.read 0 = some l →
      idBytes s.cfg l < 1 ∨ 256 < idBytes s.cfg l →
      RecordsFault .idBad { s with seq := { s.seq with idLen := l } } (seqStep s))

/-- R294, R58: step FLASH_SIZE with every operation answered: READ-MEMORY, the address frame of
0x1FFFF7E0, the length frame of 2 bytes, the read, and the size, least significant byte first (R84).
Whatever the code, a failed READ-MEMORY command pair starts UNPROTECT with `TRIES` 0 and no failure
recorded; a failure of a later operation is a failed attempt (R295, R242). How the procedure divides
into steps of the model is its choice (log 18). -/
def Obligations.FlashSizeProcedure : Prop :=
  ∀ (s : State) (op : Byte), s.link.lstate = .idle → s.seq.step = .flashSize →
    s.seq.ctValid.getLsbD 5 = true → s.seq.ct.read 5 = some op →
    (s.seq.sub = 0 → seqStep s = exec (.sendCmd op) { s with seq := { s.seq with sub := 1 } }) ∧
    (s.seq.sub = 1 → s.link.result = .ok → ∃ m : Memory,
      (∀ k, m.read k = if k < 4 then [0x1F, 0xFF, 0xF7, 0xE0][k]? else s.link.txbuf.read k) ∧
      seqStep s = exec (.sendFrame 4) { s with
        link := { s.link with txbuf := m }, seq := { s.seq with sub := 2 } }) ∧
    (s.seq.sub = 2 → s.link.result = .ok → ∃ m : Memory,
      (∀ k, m.read k = if k = 0 then some 0x01 else s.link.txbuf.read k) ∧
      seqStep s = exec (.sendFrame 1) { s with
        link := { s.link with txbuf := m }, seq := { s.seq with sub := 3 } }) ∧
    (s.seq.sub = 3 → s.link.result = .ok →
      seqStep s = exec (.readBytes 2) { s with seq := { s.seq with sub := 4 } }) ∧
    (∀ r0 r1 : Byte, s.seq.sub = 4 → s.link.result = .ok → s.link.rxbuf.read 0 = some r0 →
      s.link.rxbuf.read 1 = some r1 → ∃ kb : BitVec 16, kb.toNat = r0.toNat + 256 * r1.toNat ∧
      seqStep s = .next { s with
        seq := { s.seq with
          flashKb := kb, fsizeValid := true, sstate := .flashSizeKnown, step := .erase, sub := 0
          tries := 0 } }) ∧
    (s.seq.sub = 1 → s.link.result ≠ .ok → seqStep s = .next { s with
      seq := { s.seq with step := .unprotect, sub := 0, tries := 0 } }) ∧
    (2 ≤ s.seq.sub → s.seq.sub ≤ 4 → s.link.result ≠ .ok →
      seqStep s = .next (s.stepFail .flashSize 0x1FFFF7E0))

/-- R296, R297: step UNPROTECT: the READOUT-UNPROTECT command; a failure is a failed attempt; success
is a restart, which within `RESTART_LIMIT` clears the identity and the counters and probes again from
`DISCONNECTED`, and beyond it fails the session with the step code RESTART_LIMIT. The new count `w` is
`RESTARTS + 1`; past 0xFFFFFFFF it is any value (log 13). How the procedure divides into steps of the
model is its choice (log 18). -/
def Obligations.UnprotectAndRestart : Prop :=
  ∀ (s : State) (op : Byte), s.link.lstate = .idle → s.seq.step = .unprotect →
    s.seq.ctValid.getLsbD 12 = true → s.seq.ct.read 12 = some op →
    (s.seq.sub = 0 → seqStep s = exec (.sendCmd op) { s with seq := { s.seq with sub := 1 } }) ∧
    (s.seq.sub = 1 → s.link.result ≠ .ok → seqStep s = .next (s.stepFail .unprotect 0)) ∧
    (s.seq.sub = 1 → s.link.result = .ok → ∃ (w : Word) (n : Nat),
      (s.seq.restarts ≠ 0xFFFFFFFF → w.toNat = s.seq.restarts.toNat + 1 ∧ n = s.freeCount) ∧
      ((∀ k, s.cfg.restartLimit = some k → w.toNat ≤ k) → seqStep s = .next { s with
        freeCount := n
        seq := { s.seq with
          restarts := w, ctValid := 0, idLen := 0, flashKb := 0, fsizeValid := false, tries := 0
          probes := 0, resume := false, sstate := .disconnected, step := .probe, sub := 0 } }) ∧
      (∀ k, s.cfg.restartLimit = some k → k < w.toNat → seqStep s = .next { s with
        freeCount := n
        seq := { s.seq with
          restarts := w, sstate := .failed, failStep := .restartLimit, failResult := .ok
          failAddr := 0, sdone := true, sbusy := false, step := .done } }))

/-- R298, R141, R126, R127: step ERASE: the command of `CT[8]`; then the opcode 0x44 sends the payload
`FF FF` and any other opcode the payload `FF`; with both acknowledged PROGRAM starts; a failure of
either is a failed attempt of the whole step. How the procedure divides into steps of the model is its
choice (log 18). -/
def Obligations.EraseFormByOpcode : Prop :=
  ∀ (s : State) (op : Byte), s.link.lstate = .idle → s.seq.step = .erase →
    s.seq.ctValid.getLsbD 8 = true → s.seq.ct.read 8 = some op →
    (s.seq.sub = 0 → seqStep s = exec (.sendCmd op) { s with seq := { s.seq with sub := 1 } }) ∧
    (s.seq.sub = 1 → s.link.result = .ok → ∃ m : Memory,
      (∀ k, m.read k =
        if k = 0 ∨ (k = 1 ∧ op = 0x44) then some 0xFF else s.link.txbuf.read k) ∧
      seqStep s = exec (.sendFrame (if op = 0x44 then 2 else 1)) { s with
        link := { s.link with txbuf := m }, seq := { s.seq with sub := 2 } }) ∧
    (s.seq.sub = 2 → s.link.result = .ok → seqStep s = .next { s with
      seq := { s.seq with sstate := .erased, step := .program, sub := 0, tries := 0 } }) ∧
    (1 ≤ s.seq.sub → s.seq.sub ≤ 2 → s.link.result ≠ .ok →
      seqStep s = .next (s.stepFail .erase 0))

/-- R299, R283, R300, R302: a pull of the page source with no page latched, item by item. A page of a
length outside 1 to 256 is `fault(PAGE_BAD)`; that it stays the next item is the model's reading (log
8), that an empty stream leaves the Sequencer waiting (log 22) and that the items behind `End` or
`Error` stay for a later session (log 29) are its choices. How the procedure divides into steps of the
model is its choice (log 18). -/
def Obligations.PageSourcePull : Prop :=
  ∀ (s : State) (rest : List PageItem), s.link.lstate = .idle → s.seq.step = .program →
    s.seq.sub = 0 → s.seq.latch = none →
    (∀ b d, s.source = .page b d :: rest → 1 ≤ d.length → d.length ≤ 256 →
      seqStep s = .next { s with
        source := rest, seq := { s.seq with latch := some { base := b, data := d }, tries := 0 } }) ∧
    (∀ b d, s.source = .page b d :: rest → d.length < 1 ∨ 256 < d.length →
      RecordsFault .pageBad s (seqStep s)) ∧
    (s.source = [] → seqStep s = .next s) ∧
    (∀ a, s.source = .start a :: rest → seqStep s = .next { s with
      source := rest, seq := { s.seq with startAddr := a, startValid := true } }) ∧
    (s.source = .endOfImage :: rest → seqStep s = .next { s with
      source := rest
      seq := { s.seq with sstate := .programming, step := .go, sub := 0, tries := 0 } }) ∧
    (s.source = .error :: rest → seqStep s = .next { s with
      source := rest
      seq := { s.seq with
        sstate := .failed, failStep := .sourceError, failResult := .ok, failAddr := 0
        sdone := true, sbusy := false, step := .done } })

/-- R299, R303, R124: the write of the latched page: the WRITE-MEMORY command, the address frame, the
data frame of the length byte and the bytes; three acknowledgements unlatch the page; a failure at any
of the three keeps the page latched and the page source where it is, whether the page is redone or the
session fails for good. How the procedure divides into steps of the model is its choice (log 18). -/
def Obligations.PageWriteProcedure : Prop :=
  ∀ (s : State) (op : Byte) (pg : PageLatch), s.link.lstate = .idle → s.seq.step = .program →
    s.seq.latch = some pg → 1 ≤ pg.data.length → pg.data.length ≤ 256 →
    s.seq.ctValid.getLsbD 7 = true → s.seq.ct.read 7 = some op →
    (s.seq.sub = 0 → seqStep s = exec (.sendCmd op) { s with seq := { s.seq with sub := 1 } }) ∧
    (s.seq.sub = 1 → s.link.result = .ok → ∃ m : Memory,
      (∀ k, m.read k = if k < 4 then (encAddr pg.base)[k]? else s.link.txbuf.read k) ∧
      seqStep s = exec (.sendFrame 4) { s with
        link := { s.link with txbuf := m }, seq := { s.seq with sub := 2 } }) ∧
    (s.seq.sub = 2 → s.link.result = .ok → ∃ (m : Memory) (n : BitVec 9),
      n.toNat = pg.data.length + 1 ∧ (∃ b, m.read 0 = some b ∧ b.toNat + 1 = pg.data.length) ∧
      (∀ i < pg.data.length, m.read (i + 1) = pg.data[i]?) ∧
      (∀ k, pg.data.length < k → m.read k = s.link.txbuf.read k) ∧
      seqStep s = exec (.sendFrame n) { s with
        link := { s.link with txbuf := m }, seq := { s.seq with sub := 3 } }) ∧
    (s.seq.sub = 3 → s.link.result = .ok → seqStep s = .next { s with
      seq := { s.seq with latch := none, tries := 0, sub := 0 } }) ∧
    (1 ≤ s.seq.sub → s.seq.sub ≤ 3 → s.link.result ≠ .ok →
      seqStep s = .next (s.stepFail .pageWrite pg.base) ∧
      (s.stepFail .pageWrite pg.base).seq.latch = some pg ∧
      (s.stepFail .pageWrite pg.base).source = s.source)

/-- R304, R305: step GO: with no entry point the session ends in PROGRAMMING and nothing is issued;
with one, the GO command and the address frame are issued, and their success ends the session in
JUMPED. How the procedure divides into steps of the model is its choice (log 18). -/
def Obligations.GoStepProcedure : Prop :=
  ∀ s : State, s.link.lstate = .idle → s.seq.step = .go →
    (s.seq.startValid = false → seqStep s = .next { s with
      seq := { s.seq with sdone := true, sbusy := false, step := .done } }) ∧
    (∀ op, s.seq.startValid = true → s.seq.ctValid.getLsbD 6 = true → s.seq.ct.read 6 = some op →
      (s.seq.sub = 0 → seqStep s = exec (.sendCmd op) { s with seq := { s.seq with sub := 1 } }) ∧
      (s.seq.sub = 1 → s.link.result = .ok → ∃ m : Memory,
        (∀ k, m.read k =
          if k < 4 then (encAddr s.seq.startAddr)[k]? else s.link.txbuf.read k) ∧
        seqStep s = exec (.sendFrame 4) { s with
          link := { s.link with txbuf := m }, seq := { s.seq with sub := 2 } }) ∧
      (s.seq.sub = 2 → s.link.result = .ok → seqStep s = .next { s with
        seq := { s.seq with
          goIssued := true, sstate := .jumped, sdone := true, sbusy := false, step := .done } }) ∧
      (1 ≤ s.seq.sub → s.seq.sub ≤ 2 → s.link.result ≠ .ok →
        seqStep s = .next (s.stepFail .go s.seq.startAddr)))

/-- R282, R63, R345: a Sequencer read of a Command Table entry whose `CT_VALID` bit is 0 is
`fault(CT_UNFILLED)` with no other effect. The entries are those its steps read: 4, 5, 12, 8, 7, 6.
How the procedure divides into steps of the model is its choice (log 18). -/
def Obligations.UnfilledEntryFaults : Prop :=
  ∀ s : State, s.link.lstate = .idle →
    (s.seq.step = .identify ∧ s.seq.sub = 5 ∧ s.link.result = .ok ∧ s.seq.ctValid.getLsbD 4 = false ∨
      s.seq.step = .flashSize ∧ s.seq.sub = 0 ∧ s.seq.ctValid.getLsbD 5 = false ∨
      s.seq.step = .unprotect ∧ s.seq.sub = 0 ∧ s.seq.ctValid.getLsbD 12 = false ∨
      s.seq.step = .erase ∧ s.seq.sub = 0 ∧ s.seq.ctValid.getLsbD 8 = false ∨
      s.seq.step = .program ∧ s.seq.sub = 0 ∧ s.seq.latch.isSome ∧
        s.seq.ctValid.getLsbD 7 = false ∨
      s.seq.step = .go ∧ s.seq.sub = 0 ∧ s.seq.startValid = true ∧
        s.seq.ctValid.getLsbD 6 = false) →
    RecordsFault .ctUnfilled s (seqStep s)

/-- R281 to R304, R354: no step of the Sequencer sends a byte or reads one itself: it changes the
channel only through FLUSH_RX, which only step PROBE issues. -/
def Obligations.SequencerWorksThroughOperations : Prop :=
  ∀ s t : State, s.link.lstate = .idle → seqStep s = .next t →
    t.chan.txlog = s.chan.txlog ∧ t.chan.ticks = s.chan.ticks ∧ t.chan.chpar = s.chan.chpar ∧
    (t.chan.rxfifo = s.chan.rxfifo ∨ (t.chan.rxfifo = [] ∧ s.seq.step = .probe ∧ s.seq.sub = 0)) ∧
    t.cfg = s.cfg ∧ t.turns = s.turns ∧ t.portOut = s.portOut

/-- R345, R43: only a client's read of `RXBUF` raises RXBUF_UNWRITTEN: in a state that meets the
invariant no other step does, so the Sequencer always finds the reply it reads. -/
def Obligations.OnlyClientReadsFindNoReply : Prop :=
  ∀ s t : State, s.Inv → step s = .next t → .rxbufUnwritten ∈ t.faults →
    .rxbufUnwritten ∈ s.faults ∨ ∃ i rest, s.turns = .client (.arrRead .rxbuf i) :: rest

/-- R305, R288: a session ends in one of its three outcomes. In a state that meets the invariant, a
step other than a reset that leaves no session running where one ran has set `SDONE` and reached one.
The reset event is a turn (log 4). -/
def Obligations.SessionEndsInOneOfThree : Prop :=
  ∀ s t : State, s.Inv → step s = .next t → s.turns.head? ≠ some .reset →
    s.seq.sbusy = true → t.seq.sbusy = false →
    t.seq.sdone = true ∧
      (t.seq.sstate = .jumped ∧ t.seq.goIssued = true ∧ t.seq.failStep = .none ∨
        t.seq.sstate = .programming ∧ t.seq.goIssued = false ∧ t.seq.failStep = .none ∨
        t.seq.sstate = .failed ∧ t.seq.goIssued = false ∧ t.seq.failStep ≠ .none)
end

