-- ==== Sys2Proof/Laws/Decode.lean ====
section
/-!
SUPPORT. The fields of a request word (30_encoding.md R110): what each extraction gives on a word built
from its fields, and each field as arithmetic on the word's value.
-/

namespace Sys2Proof

/-- Two adjacent fields as one number. -/
theorem append_toNat {n m : Nat} (x : BitVec n) (y : BitVec m) :
    (x ++ y).toNat = x.toNat * 2 ^ m + y.toNat := by
  rw [BitVec.toNat_append, ← Nat.shiftLeft_add_eq_or_of_lt y.isLt, Nat.shiftLeft_eq]

theorem requestWord_toNat (op : BitVec 4) (b : Byte) (l : BitVec 9) :
    (requestWord op b l).toNat = op.toNat + b.toNat * 256 + l.toNat * 65536 := by
  have h : (requestWord op b l).toNat =
      (((((0#7).toNat * 2 ^ 9 + l.toNat) * 2 ^ 8 + b.toNat) * 2 ^ 4 + (0#4).toNat) * 2 ^ 4
        + op.toNat) := by
    rw [← append_toNat, ← append_toNat, ← append_toNat, ← append_toNat]
    rfl
  rw [h]
  simp only [BitVec.toNat_ofNat]
  omega

theorem reqOp_toNat (v : Word) : (reqOp v).toNat = v.toNat % 16 := by
  simp [reqOp, BitVec.extractLsb'_toNat]

theorem reqLow_toNat (v : Word) : (reqLow v).toNat = v.toNat / 16 % 16 := by
  simp [reqLow, BitVec.extractLsb'_toNat, Nat.shiftRight_eq_div_pow]

theorem reqByte_toNat (v : Word) : (reqByte v).toNat = v.toNat / 256 % 256 := by
  simp [reqByte, BitVec.extractLsb'_toNat, Nat.shiftRight_eq_div_pow]

theorem reqLen_toNat (v : Word) : (reqLen v).toNat = v.toNat / 65536 % 512 := by
  simp [reqLen, BitVec.extractLsb'_toNat, Nat.shiftRight_eq_div_pow]

theorem reqHigh_toNat (v : Word) : (reqHigh v).toNat = v.toNat / 33554432 := by
  have := v.isLt
  simp [reqHigh, BitVec.extractLsb'_toNat, Nat.shiftRight_eq_div_pow]
  omega

@[simp] theorem reqOp_requestWord (op : BitVec 4) (b : Byte) (l : BitVec 9) :
    reqOp (requestWord op b l) = op := by
  apply BitVec.eq_of_toNat_eq
  have h1 := op.isLt
  have h2 := b.isLt
  have h3 := l.isLt
  rw [reqOp_toNat, requestWord_toNat]
  omega

@[simp] theorem reqLow_requestWord (op : BitVec 4) (b : Byte) (l : BitVec 9) :
    reqLow (requestWord op b l) = 0 := by
  apply BitVec.eq_of_toNat_eq
  have h1 := op.isLt
  have h2 := b.isLt
  have h3 := l.isLt
  rw [reqLow_toNat, requestWord_toNat]
  show _ = 0
  omega

@[simp] theorem reqByte_requestWord (op : BitVec 4) (b : Byte) (l : BitVec 9) :
    reqByte (requestWord op b l) = b := by
  apply BitVec.eq_of_toNat_eq
  have h1 := op.isLt
  have h2 := b.isLt
  have h3 := l.isLt
  rw [reqByte_toNat, requestWord_toNat]
  omega

@[simp] theorem reqLen_requestWord (op : BitVec 4) (b : Byte) (l : BitVec 9) :
    reqLen (requestWord op b l) = l := by
  apply BitVec.eq_of_toNat_eq
  have h1 := op.isLt
  have h2 := b.isLt
  have h3 := l.isLt
  rw [reqLen_toNat, requestWord_toNat]
  omega

@[simp] theorem reqHigh_requestWord (op : BitVec 4) (b : Byte) (l : BitVec 9) :
    reqHigh (requestWord op b l) = 0 := by
  apply BitVec.eq_of_toNat_eq
  have h1 := op.isLt
  have h2 := b.isLt
  have h3 := l.isLt
  rw [reqHigh_toNat, requestWord_toNat]
  show _ = 0
  omega

end Sys2Proof
end

