-- ==== Sys2Proof/Laws/Memory.lean ====
section
/-!
SUPPORT. The laws of the byte arrays: what a read after a write gives, and that every operation on an
array keeps its canonical form and its size.
-/

namespace Sys2Proof.Machine

@[simp] theorem Memory.read_nil (a : Nat) : Memory.read [] a = none := rfl

/-- A read after a write: the byte written at its own index, the old value everywhere else. -/
theorem Memory.read_write (m : Memory) (a k : Nat) (b : Byte) :
    (m.write a b).read k = if k = a then some b else m.read k := by
  induction m with
  | nil => by_cases h : k = a <;> simp [Memory.write, Memory.read, h]
  | cons c m ih =>
    obtain ⟨c, x⟩ := c
    unfold Memory.write
    split
    · by_cases h : k = a <;> simp [Memory.read, h]
    · split
      · rename_i h1 h2
        subst h2
        by_cases h : k = a <;> simp [Memory.read, h]
      · rename_i h1 h2
        by_cases h : k = c
        · subst h
          have : ¬ k = a := fun e => h2 e.symm
          simp [Memory.read, this]
        · simp [Memory.read, h, ih]

@[simp] theorem Memory.read_write_same (m : Memory) (a : Nat) (b : Byte) :
    (m.write a b).read a = some b := by
  simp [Memory.read_write]

theorem Memory.read_write_ne (m : Memory) {a k : Nat} (b : Byte) (h : k ≠ a) :
    (m.write a b).read k = m.read k := by
  simp [Memory.read_write, h]

/-- An index listed after a write is the written one or was listed before. -/
theorem Memory.mem_write (m : Memory) (a : Nat) (b : Byte) :
    ∀ c ∈ m.write a b, c.1 = a ∨ c ∈ m := by
  induction m with
  | nil => intro c hc; simp [Memory.write] at hc; simp [hc]
  | cons d m ih =>
    obtain ⟨d, x⟩ := d
    intro c hc
    unfold Memory.write at hc
    split at hc
    · rcases List.mem_cons.1 hc with rfl | h
      · exact .inl rfl
      · exact .inr h
    · split at hc
      · rcases List.mem_cons.1 hc with rfl | h
        · exact .inl rfl
        · exact .inr (List.mem_cons_of_mem _ h)
      · rcases List.mem_cons.1 hc with rfl | h
        · exact .inr (List.mem_cons_self ..)
        · exact (ih c h).imp id (List.mem_cons_of_mem _)

/-- A write keeps the canonical form. -/
theorem Memory.wf_write {m : Memory} (h : m.wf) (a : Nat) (b : Byte) : (m.write a b).wf := by
  induction m with
  | nil => exact List.pairwise_singleton _ _
  | cons c m ih =>
    obtain ⟨c, x⟩ := c
    obtain ⟨hc, hm⟩ := List.pairwise_cons.1 h
    unfold Memory.write
    split
    · rename_i hac
      refine List.pairwise_cons.2 ⟨fun y hy => ?_, h⟩
      rcases List.mem_cons.1 hy with rfl | hy
      · exact hac
      · exact Nat.lt_trans hac (hc y hy)
    · split
      · rename_i hac
        subst hac
        exact List.pairwise_cons.2 ⟨hc, hm⟩
      · rename_i h1 h2
        refine List.pairwise_cons.2 ⟨fun y hy => ?_, ih hm⟩
        rcases Memory.mem_write m a b y hy with hy | hy
        · show c < y.1
          omega
        · exact hc y hy

/-- A write inside an array stays inside it. -/
theorem Memory.within_write {m : Memory} {size a : Nat} (h : m.within size) (ha : a < size)
    (b : Byte) : (m.write a b).within size := by
  intro c hc
  rcases Memory.mem_write m a b c hc with hc | hc
  · omega
  · exact h c hc

/-- Writing a list keeps the canonical form. -/
theorem Memory.wf_writeList {m : Memory} (h : m.wf) (a : Nat) (bs : List Byte) :
    (m.writeList a bs).wf := by
  induction bs generalizing m a with
  | nil => exact h
  | cons b bs ih => exact ih (Memory.wf_write h a b) (a + 1)

/-- Writing a list inside an array stays inside it. -/
theorem Memory.within_writeList {m : Memory} {size : Nat} (h : m.within size) (a : Nat)
    (bs : List Byte) (ha : a + bs.length ≤ size) : (m.writeList a bs).within size := by
  induction bs generalizing m a with
  | nil => exact h
  | cons b bs ih =>
    simp only [List.length_cons] at ha
    exact ih (Memory.within_write h (by omega) b) (a + 1) (by omega)

/-- A read after a list was written from `a` on. -/
theorem Memory.read_writeList (m : Memory) (a k : Nat) (bs : List Byte) :
    (m.writeList a bs).read k =
      if a ≤ k ∧ k < a + bs.length then bs[k - a]? else m.read k := by
  induction bs generalizing m a with
  | nil =>
    have : ¬ (a ≤ k ∧ k < a + ([] : List Byte).length) := by
      simp only [List.length_nil]
      omega
    rw [if_neg this]
    rfl
  | cons b bs ih =>
    show ((m.write a b).writeList (a + 1) bs).read k = _
    rw [ih, Memory.read_write]
    simp only [List.length_cons]
    by_cases h1 : k = a
    · subst h1
      simp
    · by_cases h2 : a + 1 ≤ k ∧ k < a + 1 + bs.length
      · rw [if_pos h2, if_pos (by omega)]
        have : k - a = (k - (a + 1)) + 1 := by omega
        rw [this, List.getElem?_cons_succ]
      · rw [if_neg h2, if_neg h1, if_neg (by omega)]

/-- A range read gives the elements in index order. -/
theorem Memory.readRange_eq_some {m : Memory} {a n : Nat} {bs : List Byte} :
    m.readRange a n = some bs ↔ bs.length = n ∧ ∀ i < n, m.read (a + i) = bs[i]? := by
  induction n generalizing a bs with
  | zero =>
    simp only [Memory.readRange, Option.some.injEq]
    constructor
    · rintro rfl
      simp
    · rintro ⟨h, -⟩
      exact (List.eq_nil_of_length_eq_zero h).symm
  | succ n ih =>
    unfold Memory.readRange
    constructor
    · intro h
      split at h
      · rename_i b rest hb hrest
        obtain ⟨hl, hr⟩ := ih.1 hrest
        cases h
        refine ⟨by simp [hl], fun i hi => ?_⟩
        cases i with
        | zero => simpa using hb
        | succ i =>
          have := hr i (by omega)
          rw [List.getElem?_cons_succ, ← this]
          congr 1
          omega
      · cases h
    · rintro ⟨hl, hr⟩
      cases bs with
      | nil => simp at hl
      | cons b bs =>
        have h0 := hr 0 (by omega)
        have h1 : m.readRange (a + 1) n = some bs := by
          refine ih.2 ⟨by simpa using hl, fun i hi => ?_⟩
          have := hr (i + 1) (by omega)
          rw [List.getElem?_cons_succ] at this
          rw [← this]
          congr 1
          omega
        simp only [Nat.add_zero, List.getElem?_cons_zero] at h0
        rw [h0, h1]

/-- A range read fails exactly where an element has no value. -/
theorem Memory.readRange_isSome {m : Memory} {a n : Nat} :
    (m.readRange a n).isSome ↔ ∀ i < n, (m.read (a + i)).isSome := by
  induction n generalizing a with
  | zero => simp [Memory.readRange]
  | succ n ih =>
    unfold Memory.readRange
    constructor
    · intro h
      split at h
      · rename_i b rest hb hrest
        intro i hi
        cases i with
        | zero => simp [hb]
        | succ i =>
          have := ih.1 (by rw [hrest]; rfl) i (by omega)
          rwa [show a + (i + 1) = a + 1 + i by omega]
      · cases h
    · intro h
      have h0 := h 0 (by omega)
      have h1 : (m.readRange (a + 1) n).isSome := ih.2 fun i hi => by
        have := h (i + 1) (by omega)
        rwa [show a + 1 + i = a + (i + 1) by omega]
      obtain ⟨b, hb⟩ := Option.isSome_iff_exists.1 h0
      obtain ⟨bs, hbs⟩ := Option.isSome_iff_exists.1 h1
      rw [Nat.add_zero] at hb
      rw [hb, hbs]
      rfl

theorem Memory.readRange_length {m : Memory} {a n : Nat} {bs : List Byte}
    (h : m.readRange a n = some bs) : bs.length = n :=
  (Memory.readRange_eq_some.1 h).1

/-- A range read depends on the elements it reads only. -/
theorem Memory.readRange_congr {m m' : Memory} {a n : Nat}
    (h : ∀ i < n, m.read (a + i) = m'.read (a + i)) : m.readRange a n = m'.readRange a n := by
  induction n generalizing a with
  | zero => rfl
  | succ n ih =>
    unfold Memory.readRange
    have h0 := h 0 (by omega)
    rw [Nat.add_zero] at h0
    rw [h0, ih fun i hi => by
      have := h (i + 1) (by omega)
      rwa [show a + 1 + i = a + (i + 1) by omega]]

end Sys2Proof.Machine
end

