-- ==== Sys2Proof/Laws/State.lean ====
section
/-!
SUPPORT. The fields of the state after each named update: the field an update writes, and every field
it leaves. One lemma per field and update, each true by unfolding the update once.
-/

namespace Sys2Proof.Machine

/-! ### `finish` -/

@[simp] theorem State.finish_cfg (c : ResultCode) (s : State) : (s.finish c).cfg = s.cfg := rfl

@[simp] theorem State.finish_link (c : ResultCode) (s : State) :
    (s.finish c).link = { s.link with result := c, rv := true, lstate := .idle, ackout := none } := rfl

@[simp] theorem State.finish_chan (c : ResultCode) (s : State) : (s.finish c).chan = s.chan := rfl

@[simp] theorem State.finish_seq (c : ResultCode) (s : State) : (s.finish c).seq = s.seq := rfl

@[simp] theorem State.finish_faults (c : ResultCode) (s : State) :
    (s.finish c).faults = s.faults := rfl

@[simp] theorem State.finish_source (c : ResultCode) (s : State) :
    (s.finish c).source = s.source := rfl

@[simp] theorem State.finish_turns (c : ResultCode) (s : State) :
    (s.finish c).turns = s.turns := rfl

@[simp] theorem State.finish_portOut (c : ResultCode) (s : State) :
    (s.finish c).portOut = s.portOut := rfl

@[simp] theorem State.finish_freeCount (c : ResultCode) (s : State) :
    (s.finish c).freeCount = s.freeCount := rfl

/-! ### `badRequest` -/

@[simp] theorem State.badRequest_cfg (v : Word) (s : State) : (s.badRequest v).cfg = s.cfg := rfl

@[simp] theorem State.badRequest_link (v : Word) (s : State) :
    (s.badRequest v).link = { s.link with
      req := v, result := .badRequest, rv := true, lstate := .idle, ackout := none } := rfl

@[simp] theorem State.badRequest_chan (v : Word) (s : State) : (s.badRequest v).chan = s.chan := rfl

@[simp] theorem State.badRequest_seq (v : Word) (s : State) : (s.badRequest v).seq = s.seq := rfl

@[simp] theorem State.badRequest_faults (v : Word) (s : State) :
    (s.badRequest v).faults = s.faults := rfl

@[simp] theorem State.badRequest_source (v : Word) (s : State) :
    (s.badRequest v).source = s.source := rfl

@[simp] theorem State.badRequest_turns (v : Word) (s : State) :
    (s.badRequest v).turns = s.turns := rfl

@[simp] theorem State.badRequest_portOut (v : Word) (s : State) :
    (s.badRequest v).portOut = s.portOut := rfl

@[simp] theorem State.badRequest_freeCount (v : Word) (s : State) :
    (s.badRequest v).freeCount = s.freeCount := rfl

/-! ### `latchRequest` -/

@[simp] theorem State.latchRequest_cfg (i : Instr) (s : State) :
    (s.latchRequest i).cfg = s.cfg := rfl

@[simp] theorem State.latchRequest_link (i : Instr) (s : State) :
    (s.latchRequest i).link = { s.link with req := encode i, opr := some i } := rfl

@[simp] theorem State.latchRequest_chan (i : Instr) (s : State) :
    (s.latchRequest i).chan = s.chan := rfl

@[simp] theorem State.latchRequest_seq (i : Instr) (s : State) :
    (s.latchRequest i).seq = s.seq := rfl

@[simp] theorem State.latchRequest_faults (i : Instr) (s : State) :
    (s.latchRequest i).faults = s.faults := rfl

@[simp] theorem State.latchRequest_source (i : Instr) (s : State) :
    (s.latchRequest i).source = s.source := rfl

@[simp] theorem State.latchRequest_turns (i : Instr) (s : State) :
    (s.latchRequest i).turns = s.turns := rfl

@[simp] theorem State.latchRequest_portOut (i : Instr) (s : State) :
    (s.latchRequest i).portOut = s.portOut := rfl

@[simp] theorem State.latchRequest_freeCount (i : Instr) (s : State) :
    (s.latchRequest i).freeCount = s.freeCount := rfl

/-! ### `chanWrite` -/

@[simp] theorem State.chanWrite_cfg (b : Byte) (s : State) : (s.chanWrite b).cfg = s.cfg := rfl

@[simp] theorem State.chanWrite_link (b : Byte) (s : State) : (s.chanWrite b).link = s.link := rfl

@[simp] theorem State.chanWrite_chan (b : Byte) (s : State) :
    (s.chanWrite b).chan = { s.chan with txlog := s.chan.txlog ++ [b] } := rfl

@[simp] theorem State.chanWrite_seq (b : Byte) (s : State) : (s.chanWrite b).seq = s.seq := rfl

@[simp] theorem State.chanWrite_faults (b : Byte) (s : State) :
    (s.chanWrite b).faults = s.faults := rfl

@[simp] theorem State.chanWrite_source (b : Byte) (s : State) :
    (s.chanWrite b).source = s.source := rfl

@[simp] theorem State.chanWrite_turns (b : Byte) (s : State) :
    (s.chanWrite b).turns = s.turns := rfl

@[simp] theorem State.chanWrite_portOut (b : Byte) (s : State) :
    (s.chanWrite b).portOut = s.portOut := rfl

@[simp] theorem State.chanWrite_freeCount (b : Byte) (s : State) :
    (s.chanWrite b).freeCount = s.freeCount := rfl

/-! ### `chanFlush` -/

@[simp] theorem State.chanFlush_cfg (s : State) : s.chanFlush.cfg = s.cfg := rfl

@[simp] theorem State.chanFlush_link (s : State) : s.chanFlush.link = s.link := rfl

@[simp] theorem State.chanFlush_chan (s : State) :
    s.chanFlush.chan = { s.chan with rxfifo := [] } := rfl

@[simp] theorem State.chanFlush_seq (s : State) : s.chanFlush.seq = s.seq := rfl

@[simp] theorem State.chanFlush_faults (s : State) : s.chanFlush.faults = s.faults := rfl

@[simp] theorem State.chanFlush_source (s : State) : s.chanFlush.source = s.source := rfl

@[simp] theorem State.chanFlush_turns (s : State) : s.chanFlush.turns = s.turns := rfl

@[simp] theorem State.chanFlush_portOut (s : State) : s.chanFlush.portOut = s.portOut := rfl

@[simp] theorem State.chanFlush_freeCount (s : State) : s.chanFlush.freeCount = s.freeCount := rfl

/-! ### `chanSetEvenParity` -/

@[simp] theorem State.chanSetEvenParity_cfg (s : State) : s.chanSetEvenParity.cfg = s.cfg := rfl

@[simp] theorem State.chanSetEvenParity_link (s : State) : s.chanSetEvenParity.link = s.link := rfl

@[simp] theorem State.chanSetEvenParity_chan (s : State) :
    s.chanSetEvenParity.chan = { s.chan with chpar := .even } := rfl

@[simp] theorem State.chanSetEvenParity_seq (s : State) : s.chanSetEvenParity.seq = s.seq := rfl

@[simp] theorem State.chanSetEvenParity_faults (s : State) :
    s.chanSetEvenParity.faults = s.faults := rfl

@[simp] theorem State.chanSetEvenParity_source (s : State) :
    s.chanSetEvenParity.source = s.source := rfl

@[simp] theorem State.chanSetEvenParity_turns (s : State) :
    s.chanSetEvenParity.turns = s.turns := rfl

@[simp] theorem State.chanSetEvenParity_portOut (s : State) :
    s.chanSetEvenParity.portOut = s.portOut := rfl

@[simp] theorem State.chanSetEvenParity_freeCount (s : State) :
    s.chanSetEvenParity.freeCount = s.freeCount := rfl

/-! ### `tick` -/

@[simp] theorem State.tick_cfg (s : State) : s.tick.cfg = s.cfg := rfl

@[simp] theorem State.tick_link (s : State) : s.tick.link = s.link := rfl

@[simp] theorem State.tick_chan (s : State) :
    s.tick.chan = { s.chan with ticks := s.chan.ticks + 1 } := rfl

@[simp] theorem State.tick_seq (s : State) : s.tick.seq = s.seq := rfl

@[simp] theorem State.tick_faults (s : State) : s.tick.faults = s.faults := rfl

@[simp] theorem State.tick_source (s : State) : s.tick.source = s.source := rfl

@[simp] theorem State.tick_turns (s : State) : s.tick.turns = s.turns := rfl

@[simp] theorem State.tick_portOut (s : State) : s.tick.portOut = s.portOut := rfl

@[simp] theorem State.tick_freeCount (s : State) : s.tick.freeCount = s.freeCount := rfl

/-! ### `deviceByte` -/

@[simp] theorem State.deviceByte_cfg (b : Byte) (s : State) : (s.deviceByte b).cfg = s.cfg := rfl

@[simp] theorem State.deviceByte_link (b : Byte) (s : State) : (s.deviceByte b).link = s.link := rfl

@[simp] theorem State.deviceByte_chan (b : Byte) (s : State) :
    (s.deviceByte b).chan = { s.chan with rxfifo := s.chan.rxfifo ++ [b] } := rfl

@[simp] theorem State.deviceByte_seq (b : Byte) (s : State) : (s.deviceByte b).seq = s.seq := rfl

@[simp] theorem State.deviceByte_faults (b : Byte) (s : State) :
    (s.deviceByte b).faults = s.faults := rfl

@[simp] theorem State.deviceByte_source (b : Byte) (s : State) :
    (s.deviceByte b).source = s.source := rfl

@[simp] theorem State.deviceByte_turns (b : Byte) (s : State) :
    (s.deviceByte b).turns = s.turns := rfl

@[simp] theorem State.deviceByte_portOut (b : Byte) (s : State) :
    (s.deviceByte b).portOut = s.portOut := rfl

@[simp] theorem State.deviceByte_freeCount (b : Byte) (s : State) :
    (s.deviceByte b).freeCount = s.freeCount := rfl

/-! ### `startTx` -/

@[simp] theorem State.startTx_cfg (bytes : List Byte) (k : Word) (n : Nat) (s : State) :
    (s.startTx bytes k n).cfg = s.cfg := rfl

@[simp] theorem State.startTx_link (bytes : List Byte) (k : Word) (n : Nat) (s : State) :
    (s.startTx bytes k n).link = { s.link with
      txq := bytes, ackb := k, attempts := n, txptr := 0, lstate := .tx } := rfl

@[simp] theorem State.startTx_chan (bytes : List Byte) (k : Word) (n : Nat) (s : State) :
    (s.startTx bytes k n).chan = s.chan := rfl

@[simp] theorem State.startTx_seq (bytes : List Byte) (k : Word) (n : Nat) (s : State) :
    (s.startTx bytes k n).seq = s.seq := rfl

@[simp] theorem State.startTx_faults (bytes : List Byte) (k : Word) (n : Nat) (s : State) :
    (s.startTx bytes k n).faults = s.faults := rfl

@[simp] theorem State.startTx_source (bytes : List Byte) (k : Word) (n : Nat) (s : State) :
    (s.startTx bytes k n).source = s.source := rfl

@[simp] theorem State.startTx_turns (bytes : List Byte) (k : Word) (n : Nat) (s : State) :
    (s.startTx bytes k n).turns = s.turns := rfl

@[simp] theorem State.startTx_portOut (bytes : List Byte) (k : Word) (n : Nat) (s : State) :
    (s.startTx bytes k n).portOut = s.portOut := rfl

@[simp] theorem State.startTx_freeCount (bytes : List Byte) (k : Word) (n : Nat) (s : State) :
    (s.startTx bytes k n).freeCount = s.freeCount := rfl

/-! ### `startWait` -/

@[simp] theorem State.startWait_cfg (k : Word) (s : State) : (s.startWait k).cfg = s.cfg := rfl

@[simp] theorem State.startWait_link (k : Word) (s : State) :
    (s.startWait k).link = { s.link with polls := k, attempts := 1, txq := [], lstate := .ackwait } := rfl

@[simp] theorem State.startWait_chan (k : Word) (s : State) : (s.startWait k).chan = s.chan := rfl

@[simp] theorem State.startWait_seq (k : Word) (s : State) : (s.startWait k).seq = s.seq := rfl

@[simp] theorem State.startWait_faults (k : Word) (s : State) :
    (s.startWait k).faults = s.faults := rfl

@[simp] theorem State.startWait_source (k : Word) (s : State) :
    (s.startWait k).source = s.source := rfl

@[simp] theorem State.startWait_turns (k : Word) (s : State) :
    (s.startWait k).turns = s.turns := rfl

@[simp] theorem State.startWait_portOut (k : Word) (s : State) :
    (s.startWait k).portOut = s.portOut := rfl

@[simp] theorem State.startWait_freeCount (k : Word) (s : State) :
    (s.startWait k).freeCount = s.freeCount := rfl

/-! ### `startRx` -/

@[simp] theorem State.startRx_cfg (n k : Nat) (s : State) : (s.startRx n k).cfg = s.cfg := rfl

@[simp] theorem State.startRx_link (n k : Nat) (s : State) :
    (s.startRx n k).link = { s.link with rxn := n, rxcnt := 0, rxpolls := k, lstate := .rx } := rfl

@[simp] theorem State.startRx_chan (n k : Nat) (s : State) : (s.startRx n k).chan = s.chan := rfl

@[simp] theorem State.startRx_seq (n k : Nat) (s : State) : (s.startRx n k).seq = s.seq := rfl

@[simp] theorem State.startRx_faults (n k : Nat) (s : State) :
    (s.startRx n k).faults = s.faults := rfl

@[simp] theorem State.startRx_source (n k : Nat) (s : State) :
    (s.startRx n k).source = s.source := rfl

@[simp] theorem State.startRx_turns (n k : Nat) (s : State) : (s.startRx n k).turns = s.turns := rfl

@[simp] theorem State.startRx_portOut (n k : Nat) (s : State) :
    (s.startRx n k).portOut = s.portOut := rfl

@[simp] theorem State.startRx_freeCount (n k : Nat) (s : State) :
    (s.startRx n k).freeCount = s.freeCount := rfl

/-! ### `reissue` -/

@[simp] theorem State.reissue_cfg (s : State) : s.reissue.cfg = s.cfg := rfl

@[simp] theorem State.reissue_link (s : State) :
    s.reissue.link = { s.link with
      attempts := s.link.attempts - 1, txptr := 0, lstate := .tx, ackout := none } := rfl

@[simp] theorem State.reissue_chan (s : State) : s.reissue.chan = s.chan := rfl

@[simp] theorem State.reissue_seq (s : State) : s.reissue.seq = s.seq := rfl

@[simp] theorem State.reissue_faults (s : State) : s.reissue.faults = s.faults := rfl

@[simp] theorem State.reissue_source (s : State) : s.reissue.source = s.source := rfl

@[simp] theorem State.reissue_turns (s : State) : s.reissue.turns = s.turns := rfl

@[simp] theorem State.reissue_portOut (s : State) : s.reissue.portOut = s.portOut := rfl

@[simp] theorem State.reissue_freeCount (s : State) : s.reissue.freeCount = s.freeCount := rfl

/-! ### `resetEvent` -/

@[simp] theorem State.resetEvent_cfg (s : State) : s.resetEvent.cfg = s.cfg := rfl

@[simp] theorem State.resetEvent_link (s : State) : s.resetEvent.link = Link.reset := rfl

@[simp] theorem State.resetEvent_chan (s : State) : s.resetEvent.chan = s.chan := rfl

@[simp] theorem State.resetEvent_seq (s : State) : s.resetEvent.seq = Session.reset := rfl

@[simp] theorem State.resetEvent_faults (s : State) : s.resetEvent.faults = s.faults := rfl

@[simp] theorem State.resetEvent_source (s : State) : s.resetEvent.source = s.source := rfl

@[simp] theorem State.resetEvent_turns (s : State) : s.resetEvent.turns = s.turns := rfl

@[simp] theorem State.resetEvent_portOut (s : State) : s.resetEvent.portOut = s.portOut := rfl

@[simp] theorem State.resetEvent_freeCount (s : State) : s.resetEvent.freeCount = s.freeCount := rfl

/-! ### `setLastRx` -/

@[simp] theorem State.setLastRx_cfg (b : Byte) (s : State) : (s.setLastRx b).cfg = s.cfg := rfl

@[simp] theorem State.setLastRx_link (b : Byte) (s : State) :
    (s.setLastRx b).link = { s.link with lastRx := b } := rfl

@[simp] theorem State.setLastRx_chan (b : Byte) (s : State) : (s.setLastRx b).chan = s.chan := rfl

@[simp] theorem State.setLastRx_seq (b : Byte) (s : State) : (s.setLastRx b).seq = s.seq := rfl

@[simp] theorem State.setLastRx_faults (b : Byte) (s : State) :
    (s.setLastRx b).faults = s.faults := rfl

@[simp] theorem State.setLastRx_source (b : Byte) (s : State) :
    (s.setLastRx b).source = s.source := rfl

@[simp] theorem State.setLastRx_turns (b : Byte) (s : State) :
    (s.setLastRx b).turns = s.turns := rfl

@[simp] theorem State.setLastRx_portOut (b : Byte) (s : State) :
    (s.setLastRx b).portOut = s.portOut := rfl

@[simp] theorem State.setLastRx_freeCount (b : Byte) (s : State) :
    (s.setLastRx b).freeCount = s.freeCount := rfl

/-! ### `spendPoll` -/

@[simp] theorem State.spendPoll_cfg (s : State) : s.spendPoll.cfg = s.cfg := rfl

@[simp] theorem State.spendPoll_link (s : State) :
    s.spendPoll.link = { s.link with polls := s.link.polls - 1 } := rfl

@[simp] theorem State.spendPoll_chan (s : State) : s.spendPoll.chan = s.chan := rfl

@[simp] theorem State.spendPoll_seq (s : State) : s.spendPoll.seq = s.seq := rfl

@[simp] theorem State.spendPoll_faults (s : State) : s.spendPoll.faults = s.faults := rfl

@[simp] theorem State.spendPoll_source (s : State) : s.spendPoll.source = s.source := rfl

@[simp] theorem State.spendPoll_turns (s : State) : s.spendPoll.turns = s.turns := rfl

@[simp] theorem State.spendPoll_portOut (s : State) : s.spendPoll.portOut = s.portOut := rfl

@[simp] theorem State.spendPoll_freeCount (s : State) : s.spendPoll.freeCount = s.freeCount := rfl

/-! ### `storeRx` -/

@[simp] theorem State.storeRx_cfg (b : Byte) (s : State) : (s.storeRx b).cfg = s.cfg := rfl

@[simp] theorem State.storeRx_link (b : Byte) (s : State) :
    (s.storeRx b).link = { s.link with
      rxbuf := s.link.rxbuf.write s.link.rxcnt b, rxcnt := s.link.rxcnt + 1
      rxpolls := rxBudget s.cfg } := rfl

@[simp] theorem State.storeRx_chan (b : Byte) (s : State) : (s.storeRx b).chan = s.chan := rfl

@[simp] theorem State.storeRx_seq (b : Byte) (s : State) : (s.storeRx b).seq = s.seq := rfl

@[simp] theorem State.storeRx_faults (b : Byte) (s : State) : (s.storeRx b).faults = s.faults := rfl

@[simp] theorem State.storeRx_source (b : Byte) (s : State) : (s.storeRx b).source = s.source := rfl

@[simp] theorem State.storeRx_turns (b : Byte) (s : State) : (s.storeRx b).turns = s.turns := rfl

@[simp] theorem State.storeRx_portOut (b : Byte) (s : State) :
    (s.storeRx b).portOut = s.portOut := rfl

@[simp] theorem State.storeRx_freeCount (b : Byte) (s : State) :
    (s.storeRx b).freeCount = s.freeCount := rfl

/-! ### `setParEven` -/

@[simp] theorem State.setParEven_cfg (s : State) : s.setParEven.cfg = s.cfg := rfl

@[simp] theorem State.setParEven_link (s : State) :
    s.setParEven.link = { s.link with parEven := true } := rfl

@[simp] theorem State.setParEven_chan (s : State) : s.setParEven.chan = s.chan := rfl

@[simp] theorem State.setParEven_seq (s : State) : s.setParEven.seq = s.seq := rfl

@[simp] theorem State.setParEven_faults (s : State) : s.setParEven.faults = s.faults := rfl

@[simp] theorem State.setParEven_source (s : State) : s.setParEven.source = s.source := rfl

@[simp] theorem State.setParEven_turns (s : State) : s.setParEven.turns = s.turns := rfl

@[simp] theorem State.setParEven_portOut (s : State) : s.setParEven.portOut = s.portOut := rfl

@[simp] theorem State.setParEven_freeCount (s : State) : s.setParEven.freeCount = s.freeCount := rfl

/-! ### `startSession` -/

@[simp] theorem State.startSession_cfg (r : Bool) (s : State) :
    (s.startSession r).cfg = s.cfg := rfl

@[simp] theorem State.startSession_link (r : Bool) (s : State) :
    (s.startSession r).link = s.link := rfl

@[simp] theorem State.startSession_chan (r : Bool) (s : State) :
    (s.startSession r).chan = s.chan := rfl

@[simp] theorem State.startSession_seq (r : Bool) (s : State) :
    (s.startSession r).seq = s.seq.start r := rfl

@[simp] theorem State.startSession_faults (r : Bool) (s : State) :
    (s.startSession r).faults = s.faults := rfl

@[simp] theorem State.startSession_source (r : Bool) (s : State) :
    (s.startSession r).source = s.source := rfl

@[simp] theorem State.startSession_turns (r : Bool) (s : State) :
    (s.startSession r).turns = s.turns := rfl

@[simp] theorem State.startSession_portOut (r : Bool) (s : State) :
    (s.startSession r).portOut = s.portOut := rfl

@[simp] theorem State.startSession_freeCount (r : Bool) (s : State) :
    (s.startSession r).freeCount = s.freeCount := rfl

/-! ### `fillTxbuf` -/

@[simp] theorem State.fillTxbuf_cfg (p : List Byte) (s : State) : (s.fillTxbuf p).cfg = s.cfg := rfl

@[simp] theorem State.fillTxbuf_link (p : List Byte) (s : State) :
    (s.fillTxbuf p).link = { s.link with txbuf := s.link.txbuf.writeList 0 p } := rfl

@[simp] theorem State.fillTxbuf_chan (p : List Byte) (s : State) :
    (s.fillTxbuf p).chan = s.chan := rfl

@[simp] theorem State.fillTxbuf_seq (p : List Byte) (s : State) : (s.fillTxbuf p).seq = s.seq := rfl

@[simp] theorem State.fillTxbuf_faults (p : List Byte) (s : State) :
    (s.fillTxbuf p).faults = s.faults := rfl

@[simp] theorem State.fillTxbuf_source (p : List Byte) (s : State) :
    (s.fillTxbuf p).source = s.source := rfl

@[simp] theorem State.fillTxbuf_turns (p : List Byte) (s : State) :
    (s.fillTxbuf p).turns = s.turns := rfl

@[simp] theorem State.fillTxbuf_portOut (p : List Byte) (s : State) :
    (s.fillTxbuf p).portOut = s.portOut := rfl

@[simp] theorem State.fillTxbuf_freeCount (p : List Byte) (s : State) :
    (s.fillTxbuf p).freeCount = s.freeCount := rfl

/-! ### `setBudget` -/

@[simp] theorem State.setBudget_cfg (k : Word) (s : State) : (s.setBudget k).cfg = s.cfg := rfl

@[simp] theorem State.setBudget_link (k : Word) (s : State) :
    (s.setBudget k).link = { s.link with budget := k } := rfl

@[simp] theorem State.setBudget_chan (k : Word) (s : State) : (s.setBudget k).chan = s.chan := rfl

@[simp] theorem State.setBudget_seq (k : Word) (s : State) : (s.setBudget k).seq = s.seq := rfl

@[simp] theorem State.setBudget_faults (k : Word) (s : State) :
    (s.setBudget k).faults = s.faults := rfl

@[simp] theorem State.setBudget_source (k : Word) (s : State) :
    (s.setBudget k).source = s.source := rfl

@[simp] theorem State.setBudget_turns (k : Word) (s : State) :
    (s.setBudget k).turns = s.turns := rfl

@[simp] theorem State.setBudget_portOut (k : Word) (s : State) :
    (s.setBudget k).portOut = s.portOut := rfl

@[simp] theorem State.setBudget_freeCount (k : Word) (s : State) :
    (s.setBudget k).freeCount = s.freeCount := rfl

/-! ### `writeTxbuf` -/

@[simp] theorem State.writeTxbuf_cfg (i : Nat) (b : Byte) (s : State) :
    (s.writeTxbuf i b).cfg = s.cfg := rfl

@[simp] theorem State.writeTxbuf_link (i : Nat) (b : Byte) (s : State) :
    (s.writeTxbuf i b).link = { s.link with txbuf := s.link.txbuf.write i b } := rfl

@[simp] theorem State.writeTxbuf_chan (i : Nat) (b : Byte) (s : State) :
    (s.writeTxbuf i b).chan = s.chan := rfl

@[simp] theorem State.writeTxbuf_seq (i : Nat) (b : Byte) (s : State) :
    (s.writeTxbuf i b).seq = s.seq := rfl

@[simp] theorem State.writeTxbuf_faults (i : Nat) (b : Byte) (s : State) :
    (s.writeTxbuf i b).faults = s.faults := rfl

@[simp] theorem State.writeTxbuf_source (i : Nat) (b : Byte) (s : State) :
    (s.writeTxbuf i b).source = s.source := rfl

@[simp] theorem State.writeTxbuf_turns (i : Nat) (b : Byte) (s : State) :
    (s.writeTxbuf i b).turns = s.turns := rfl

@[simp] theorem State.writeTxbuf_portOut (i : Nat) (b : Byte) (s : State) :
    (s.writeTxbuf i b).portOut = s.portOut := rfl

@[simp] theorem State.writeTxbuf_freeCount (i : Nat) (b : Byte) (s : State) :
    (s.writeTxbuf i b).freeCount = s.freeCount := rfl

/-! ### `reply` -/

@[simp] theorem State.reply_cfg (v : PortValue) (s : State) : (s.reply v).cfg = s.cfg := rfl

@[simp] theorem State.reply_link (v : PortValue) (s : State) : (s.reply v).link = s.link := rfl

@[simp] theorem State.reply_chan (v : PortValue) (s : State) : (s.reply v).chan = s.chan := rfl

@[simp] theorem State.reply_seq (v : PortValue) (s : State) : (s.reply v).seq = s.seq := rfl

@[simp] theorem State.reply_faults (v : PortValue) (s : State) :
    (s.reply v).faults = s.faults := rfl

@[simp] theorem State.reply_source (v : PortValue) (s : State) :
    (s.reply v).source = s.source := rfl

@[simp] theorem State.reply_turns (v : PortValue) (s : State) : (s.reply v).turns = s.turns := rfl

@[simp] theorem State.reply_portOut (v : PortValue) (s : State) :
    (s.reply v).portOut = s.portOut ++ [v] := rfl

@[simp] theorem State.reply_freeCount (v : PortValue) (s : State) :
    (s.reply v).freeCount = s.freeCount := rfl

/-! ### `startStep` -/

@[simp] theorem State.startStep_cfg (x : SeqStep) (s : State) : (s.startStep x).cfg = s.cfg := rfl

@[simp] theorem State.startStep_link (x : SeqStep) (s : State) :
    (s.startStep x).link = s.link := rfl

@[simp] theorem State.startStep_chan (x : SeqStep) (s : State) :
    (s.startStep x).chan = s.chan := rfl

@[simp] theorem State.startStep_seq (x : SeqStep) (s : State) :
    (s.startStep x).seq = { s.seq with step := x, sub := 0, tries := 0 } := rfl

@[simp] theorem State.startStep_faults (x : SeqStep) (s : State) :
    (s.startStep x).faults = s.faults := rfl

@[simp] theorem State.startStep_source (x : SeqStep) (s : State) :
    (s.startStep x).source = s.source := rfl

@[simp] theorem State.startStep_turns (x : SeqStep) (s : State) :
    (s.startStep x).turns = s.turns := rfl

@[simp] theorem State.startStep_portOut (x : SeqStep) (s : State) :
    (s.startStep x).portOut = s.portOut := rfl

@[simp] theorem State.startStep_freeCount (x : SeqStep) (s : State) :
    (s.startStep x).freeCount = s.freeCount := rfl

/-! ### `enter` -/

@[simp] theorem State.enter_cfg (x : SessionState) (s : State) : (s.enter x).cfg = s.cfg := rfl

@[simp] theorem State.enter_link (x : SessionState) (s : State) : (s.enter x).link = s.link := rfl

@[simp] theorem State.enter_chan (x : SessionState) (s : State) : (s.enter x).chan = s.chan := rfl

@[simp] theorem State.enter_seq (x : SessionState) (s : State) :
    (s.enter x).seq = { s.seq with sstate := x } := rfl

@[simp] theorem State.enter_faults (x : SessionState) (s : State) :
    (s.enter x).faults = s.faults := rfl

@[simp] theorem State.enter_source (x : SessionState) (s : State) :
    (s.enter x).source = s.source := rfl

@[simp] theorem State.enter_turns (x : SessionState) (s : State) :
    (s.enter x).turns = s.turns := rfl

@[simp] theorem State.enter_portOut (x : SessionState) (s : State) :
    (s.enter x).portOut = s.portOut := rfl

@[simp] theorem State.enter_freeCount (x : SessionState) (s : State) :
    (s.enter x).freeCount = s.freeCount := rfl

/-! ### `setSub` -/

@[simp] theorem State.setSub_cfg (k : Nat) (s : State) : (s.setSub k).cfg = s.cfg := rfl

@[simp] theorem State.setSub_link (k : Nat) (s : State) : (s.setSub k).link = s.link := rfl

@[simp] theorem State.setSub_chan (k : Nat) (s : State) : (s.setSub k).chan = s.chan := rfl

@[simp] theorem State.setSub_seq (k : Nat) (s : State) :
    (s.setSub k).seq = { s.seq with sub := k } := rfl

@[simp] theorem State.setSub_faults (k : Nat) (s : State) : (s.setSub k).faults = s.faults := rfl

@[simp] theorem State.setSub_source (k : Nat) (s : State) : (s.setSub k).source = s.source := rfl

@[simp] theorem State.setSub_turns (k : Nat) (s : State) : (s.setSub k).turns = s.turns := rfl

@[simp] theorem State.setSub_portOut (k : Nat) (s : State) : (s.setSub k).portOut = s.portOut := rfl

@[simp] theorem State.setSub_freeCount (k : Nat) (s : State) :
    (s.setSub k).freeCount = s.freeCount := rfl

/-! ### `setTries` -/

@[simp] theorem State.setTries_cfg (w : Word) (s : State) : (s.setTries w).cfg = s.cfg := rfl

@[simp] theorem State.setTries_link (w : Word) (s : State) : (s.setTries w).link = s.link := rfl

@[simp] theorem State.setTries_chan (w : Word) (s : State) : (s.setTries w).chan = s.chan := rfl

@[simp] theorem State.setTries_seq (w : Word) (s : State) :
    (s.setTries w).seq = { s.seq with tries := w } := rfl

@[simp] theorem State.setTries_faults (w : Word) (s : State) :
    (s.setTries w).faults = s.faults := rfl

@[simp] theorem State.setTries_source (w : Word) (s : State) :
    (s.setTries w).source = s.source := rfl

@[simp] theorem State.setTries_turns (w : Word) (s : State) : (s.setTries w).turns = s.turns := rfl

@[simp] theorem State.setTries_portOut (w : Word) (s : State) :
    (s.setTries w).portOut = s.portOut := rfl

@[simp] theorem State.setTries_freeCount (w : Word) (s : State) :
    (s.setTries w).freeCount = s.freeCount := rfl

/-! ### `setRestarts` -/

@[simp] theorem State.setRestarts_cfg (w : Word) (s : State) : (s.setRestarts w).cfg = s.cfg := rfl

@[simp] theorem State.setRestarts_link (w : Word) (s : State) :
    (s.setRestarts w).link = s.link := rfl

@[simp] theorem State.setRestarts_chan (w : Word) (s : State) :
    (s.setRestarts w).chan = s.chan := rfl

@[simp] theorem State.setRestarts_seq (w : Word) (s : State) :
    (s.setRestarts w).seq = { s.seq with restarts := w } := rfl

@[simp] theorem State.setRestarts_faults (w : Word) (s : State) :
    (s.setRestarts w).faults = s.faults := rfl

@[simp] theorem State.setRestarts_source (w : Word) (s : State) :
    (s.setRestarts w).source = s.source := rfl

@[simp] theorem State.setRestarts_turns (w : Word) (s : State) :
    (s.setRestarts w).turns = s.turns := rfl

@[simp] theorem State.setRestarts_portOut (w : Word) (s : State) :
    (s.setRestarts w).portOut = s.portOut := rfl

@[simp] theorem State.setRestarts_freeCount (w : Word) (s : State) :
    (s.setRestarts w).freeCount = s.freeCount := rfl

/-! ### `failSession` -/

@[simp] theorem State.failSession_cfg (st : FailStep) (c : ResultCode) (a : Word) (s : State) :
    (s.failSession st c a).cfg = s.cfg := rfl

@[simp] theorem State.failSession_link (st : FailStep) (c : ResultCode) (a : Word) (s : State) :
    (s.failSession st c a).link = s.link := rfl

@[simp] theorem State.failSession_chan (st : FailStep) (c : ResultCode) (a : Word) (s : State) :
    (s.failSession st c a).chan = s.chan := rfl

@[simp] theorem State.failSession_seq (st : FailStep) (c : ResultCode) (a : Word) (s : State) :
    (s.failSession st c a).seq = { s.seq with
      sstate := .failed, failStep := st, failResult := c, failAddr := a
      sdone := true, sbusy := false, step := .done } := rfl

@[simp] theorem State.failSession_faults (st : FailStep) (c : ResultCode) (a : Word) (s : State) :
    (s.failSession st c a).faults = s.faults := rfl

@[simp] theorem State.failSession_source (st : FailStep) (c : ResultCode) (a : Word) (s : State) :
    (s.failSession st c a).source = s.source := rfl

@[simp] theorem State.failSession_turns (st : FailStep) (c : ResultCode) (a : Word) (s : State) :
    (s.failSession st c a).turns = s.turns := rfl

@[simp] theorem State.failSession_portOut (st : FailStep) (c : ResultCode) (a : Word) (s : State) :
    (s.failSession st c a).portOut = s.portOut := rfl

@[simp] theorem State.failSession_freeCount (st : FailStep) (c : ResultCode) (a : Word) (s : State) :
    (s.failSession st c a).freeCount = s.freeCount := rfl

/-! ### `endSession` -/

@[simp] theorem State.endSession_cfg (s : State) : s.endSession.cfg = s.cfg := rfl

@[simp] theorem State.endSession_link (s : State) : s.endSession.link = s.link := rfl

@[simp] theorem State.endSession_chan (s : State) : s.endSession.chan = s.chan := rfl

@[simp] theorem State.endSession_seq (s : State) :
    s.endSession.seq = { s.seq with sdone := true, sbusy := false, step := .done } := rfl

@[simp] theorem State.endSession_faults (s : State) : s.endSession.faults = s.faults := rfl

@[simp] theorem State.endSession_source (s : State) : s.endSession.source = s.source := rfl

@[simp] theorem State.endSession_turns (s : State) : s.endSession.turns = s.turns := rfl

@[simp] theorem State.endSession_portOut (s : State) : s.endSession.portOut = s.portOut := rfl

@[simp] theorem State.endSession_freeCount (s : State) : s.endSession.freeCount = s.freeCount := rfl

/-! ### `clearForRestart` -/

@[simp] theorem State.clearForRestart_cfg (s : State) : s.clearForRestart.cfg = s.cfg := rfl

@[simp] theorem State.clearForRestart_link (s : State) : s.clearForRestart.link = s.link := rfl

@[simp] theorem State.clearForRestart_chan (s : State) : s.clearForRestart.chan = s.chan := rfl

@[simp] theorem State.clearForRestart_seq (s : State) :
    s.clearForRestart.seq = { s.seq with
      ctValid := 0, idLen := 0, flashKb := 0, fsizeValid := false, tries := 0, probes := 0
      resume := false } := rfl

@[simp] theorem State.clearForRestart_faults (s : State) :
    s.clearForRestart.faults = s.faults := rfl

@[simp] theorem State.clearForRestart_source (s : State) :
    s.clearForRestart.source = s.source := rfl

@[simp] theorem State.clearForRestart_turns (s : State) : s.clearForRestart.turns = s.turns := rfl

@[simp] theorem State.clearForRestart_portOut (s : State) :
    s.clearForRestart.portOut = s.portOut := rfl

@[simp] theorem State.clearForRestart_freeCount (s : State) :
    s.clearForRestart.freeCount = s.freeCount := rfl

/-! ### `clearIdentity` -/

@[simp] theorem State.clearIdentity_cfg (s : State) : s.clearIdentity.cfg = s.cfg := rfl

@[simp] theorem State.clearIdentity_link (s : State) : s.clearIdentity.link = s.link := rfl

@[simp] theorem State.clearIdentity_chan (s : State) : s.clearIdentity.chan = s.chan := rfl

@[simp] theorem State.clearIdentity_seq (s : State) :
    s.clearIdentity.seq = { s.seq with ctValid := 0, idLen := 0 } := rfl

@[simp] theorem State.clearIdentity_faults (s : State) : s.clearIdentity.faults = s.faults := rfl

@[simp] theorem State.clearIdentity_source (s : State) : s.clearIdentity.source = s.source := rfl

@[simp] theorem State.clearIdentity_turns (s : State) : s.clearIdentity.turns = s.turns := rfl

@[simp] theorem State.clearIdentity_portOut (s : State) : s.clearIdentity.portOut = s.portOut := rfl

@[simp] theorem State.clearIdentity_freeCount (s : State) :
    s.clearIdentity.freeCount = s.freeCount := rfl

/-! ### `storeCt` -/

@[simp] theorem State.storeCt_cfg (i : Nat) (bs : List Byte) (s : State) :
    (s.storeCt i bs).cfg = s.cfg := rfl

@[simp] theorem State.storeCt_link (i : Nat) (bs : List Byte) (s : State) :
    (s.storeCt i bs).link = s.link := rfl

@[simp] theorem State.storeCt_chan (i : Nat) (bs : List Byte) (s : State) :
    (s.storeCt i bs).chan = s.chan := rfl

@[simp] theorem State.storeCt_seq (i : Nat) (bs : List Byte) (s : State) :
    (s.storeCt i bs).seq = { s.seq with ct := s.seq.ct.writeList i bs } := rfl

@[simp] theorem State.storeCt_faults (i : Nat) (bs : List Byte) (s : State) :
    (s.storeCt i bs).faults = s.faults := rfl

@[simp] theorem State.storeCt_source (i : Nat) (bs : List Byte) (s : State) :
    (s.storeCt i bs).source = s.source := rfl

@[simp] theorem State.storeCt_turns (i : Nat) (bs : List Byte) (s : State) :
    (s.storeCt i bs).turns = s.turns := rfl

@[simp] theorem State.storeCt_portOut (i : Nat) (bs : List Byte) (s : State) :
    (s.storeCt i bs).portOut = s.portOut := rfl

@[simp] theorem State.storeCt_freeCount (i : Nat) (bs : List Byte) (s : State) :
    (s.storeCt i bs).freeCount = s.freeCount := rfl

/-! ### `setCtValid` -/

@[simp] theorem State.setCtValid_cfg (n : Nat) (s : State) : (s.setCtValid n).cfg = s.cfg := rfl

@[simp] theorem State.setCtValid_link (n : Nat) (s : State) : (s.setCtValid n).link = s.link := rfl

@[simp] theorem State.setCtValid_chan (n : Nat) (s : State) : (s.setCtValid n).chan = s.chan := rfl

@[simp] theorem State.setCtValid_seq (n : Nat) (s : State) :
    (s.setCtValid n).seq = { s.seq with ctValid := BitVec.ofNat 16 (2 ^ (n + 2) - 1) } := rfl

@[simp] theorem State.setCtValid_faults (n : Nat) (s : State) :
    (s.setCtValid n).faults = s.faults := rfl

@[simp] theorem State.setCtValid_source (n : Nat) (s : State) :
    (s.setCtValid n).source = s.source := rfl

@[simp] theorem State.setCtValid_turns (n : Nat) (s : State) :
    (s.setCtValid n).turns = s.turns := rfl

@[simp] theorem State.setCtValid_portOut (n : Nat) (s : State) :
    (s.setCtValid n).portOut = s.portOut := rfl

@[simp] theorem State.setCtValid_freeCount (n : Nat) (s : State) :
    (s.setCtValid n).freeCount = s.freeCount := rfl

/-! ### `setIdLen` -/

@[simp] theorem State.setIdLen_cfg (l : Byte) (s : State) : (s.setIdLen l).cfg = s.cfg := rfl

@[simp] theorem State.setIdLen_link (l : Byte) (s : State) : (s.setIdLen l).link = s.link := rfl

@[simp] theorem State.setIdLen_chan (l : Byte) (s : State) : (s.setIdLen l).chan = s.chan := rfl

@[simp] theorem State.setIdLen_seq (l : Byte) (s : State) :
    (s.setIdLen l).seq = { s.seq with idLen := l } := rfl

@[simp] theorem State.setIdLen_faults (l : Byte) (s : State) :
    (s.setIdLen l).faults = s.faults := rfl

@[simp] theorem State.setIdLen_source (l : Byte) (s : State) :
    (s.setIdLen l).source = s.source := rfl

@[simp] theorem State.setIdLen_turns (l : Byte) (s : State) : (s.setIdLen l).turns = s.turns := rfl

@[simp] theorem State.setIdLen_portOut (l : Byte) (s : State) :
    (s.setIdLen l).portOut = s.portOut := rfl

@[simp] theorem State.setIdLen_freeCount (l : Byte) (s : State) :
    (s.setIdLen l).freeCount = s.freeCount := rfl

/-! ### `storeId` -/

@[simp] theorem State.storeId_cfg (bs : List Byte) (s : State) : (s.storeId bs).cfg = s.cfg := rfl

@[simp] theorem State.storeId_link (bs : List Byte) (s : State) :
    (s.storeId bs).link = s.link := rfl

@[simp] theorem State.storeId_chan (bs : List Byte) (s : State) :
    (s.storeId bs).chan = s.chan := rfl

@[simp] theorem State.storeId_seq (bs : List Byte) (s : State) :
    (s.storeId bs).seq = { s.seq with ident := s.seq.ident.writeList 0 bs } := rfl

@[simp] theorem State.storeId_faults (bs : List Byte) (s : State) :
    (s.storeId bs).faults = s.faults := rfl

@[simp] theorem State.storeId_source (bs : List Byte) (s : State) :
    (s.storeId bs).source = s.source := rfl

@[simp] theorem State.storeId_turns (bs : List Byte) (s : State) :
    (s.storeId bs).turns = s.turns := rfl

@[simp] theorem State.storeId_portOut (bs : List Byte) (s : State) :
    (s.storeId bs).portOut = s.portOut := rfl

@[simp] theorem State.storeId_freeCount (bs : List Byte) (s : State) :
    (s.storeId bs).freeCount = s.freeCount := rfl

/-! ### `setFlashSize` -/

@[simp] theorem State.setFlashSize_cfg (bs : List Byte) (s : State) :
    (s.setFlashSize bs).cfg = s.cfg := rfl

@[simp] theorem State.setFlashSize_link (bs : List Byte) (s : State) :
    (s.setFlashSize bs).link = s.link := rfl

@[simp] theorem State.setFlashSize_chan (bs : List Byte) (s : State) :
    (s.setFlashSize bs).chan = s.chan := rfl

@[simp] theorem State.setFlashSize_seq (bs : List Byte) (s : State) :
    (s.setFlashSize bs).seq = { s.seq with
      flashKb := flashKB (bs.headD 0) (bs.tail.headD 0), fsizeValid := true } := rfl

@[simp] theorem State.setFlashSize_faults (bs : List Byte) (s : State) :
    (s.setFlashSize bs).faults = s.faults := rfl

@[simp] theorem State.setFlashSize_source (bs : List Byte) (s : State) :
    (s.setFlashSize bs).source = s.source := rfl

@[simp] theorem State.setFlashSize_turns (bs : List Byte) (s : State) :
    (s.setFlashSize bs).turns = s.turns := rfl

@[simp] theorem State.setFlashSize_portOut (bs : List Byte) (s : State) :
    (s.setFlashSize bs).portOut = s.portOut := rfl

@[simp] theorem State.setFlashSize_freeCount (bs : List Byte) (s : State) :
    (s.setFlashSize bs).freeCount = s.freeCount := rfl

/-! ### `latchPage` -/

@[simp] theorem State.latchPage_cfg (a : Word) (d : List Byte) (rest : List PageItem) (s : State) :
    (s.latchPage a d rest).cfg = s.cfg := rfl

@[simp] theorem State.latchPage_link (a : Word) (d : List Byte) (rest : List PageItem) (s : State) :
    (s.latchPage a d rest).link = s.link := rfl

@[simp] theorem State.latchPage_chan (a : Word) (d : List Byte) (rest : List PageItem) (s : State) :
    (s.latchPage a d rest).chan = s.chan := rfl

@[simp] theorem State.latchPage_seq (a : Word) (d : List Byte) (rest : List PageItem) (s : State) :
    (s.latchPage a d rest).seq = { s.seq with latch := some { base := a, data := d }, tries := 0 } := rfl

@[simp] theorem State.latchPage_faults (a : Word) (d : List Byte) (rest : List PageItem) (s : State) :
    (s.latchPage a d rest).faults = s.faults := rfl

@[simp] theorem State.latchPage_source (a : Word) (d : List Byte) (rest : List PageItem) (s : State) :
    (s.latchPage a d rest).source = rest := rfl

@[simp] theorem State.latchPage_turns (a : Word) (d : List Byte) (rest : List PageItem) (s : State) :
    (s.latchPage a d rest).turns = s.turns := rfl

@[simp] theorem State.latchPage_portOut (a : Word) (d : List Byte) (rest : List PageItem) (s : State) :
    (s.latchPage a d rest).portOut = s.portOut := rfl

@[simp] theorem State.latchPage_freeCount (a : Word) (d : List Byte) (rest : List PageItem) (s : State) :
    (s.latchPage a d rest).freeCount = s.freeCount := rfl

/-! ### `setStart` -/

@[simp] theorem State.setStart_cfg (a : Word) (rest : List PageItem) (s : State) :
    (s.setStart a rest).cfg = s.cfg := rfl

@[simp] theorem State.setStart_link (a : Word) (rest : List PageItem) (s : State) :
    (s.setStart a rest).link = s.link := rfl

@[simp] theorem State.setStart_chan (a : Word) (rest : List PageItem) (s : State) :
    (s.setStart a rest).chan = s.chan := rfl

@[simp] theorem State.setStart_seq (a : Word) (rest : List PageItem) (s : State) :
    (s.setStart a rest).seq = { s.seq with startAddr := a, startValid := true } := rfl

@[simp] theorem State.setStart_faults (a : Word) (rest : List PageItem) (s : State) :
    (s.setStart a rest).faults = s.faults := rfl

@[simp] theorem State.setStart_source (a : Word) (rest : List PageItem) (s : State) :
    (s.setStart a rest).source = rest := rfl

@[simp] theorem State.setStart_turns (a : Word) (rest : List PageItem) (s : State) :
    (s.setStart a rest).turns = s.turns := rfl

@[simp] theorem State.setStart_portOut (a : Word) (rest : List PageItem) (s : State) :
    (s.setStart a rest).portOut = s.portOut := rfl

@[simp] theorem State.setStart_freeCount (a : Word) (rest : List PageItem) (s : State) :
    (s.setStart a rest).freeCount = s.freeCount := rfl

/-! ### `pageWritten` -/

@[simp] theorem State.pageWritten_cfg (s : State) : s.pageWritten.cfg = s.cfg := rfl

@[simp] theorem State.pageWritten_link (s : State) : s.pageWritten.link = s.link := rfl

@[simp] theorem State.pageWritten_chan (s : State) : s.pageWritten.chan = s.chan := rfl

@[simp] theorem State.pageWritten_seq (s : State) :
    s.pageWritten.seq = { s.seq with latch := none, tries := 0, sub := 0 } := rfl

@[simp] theorem State.pageWritten_faults (s : State) : s.pageWritten.faults = s.faults := rfl

@[simp] theorem State.pageWritten_source (s : State) : s.pageWritten.source = s.source := rfl

@[simp] theorem State.pageWritten_turns (s : State) : s.pageWritten.turns = s.turns := rfl

@[simp] theorem State.pageWritten_portOut (s : State) : s.pageWritten.portOut = s.portOut := rfl

@[simp] theorem State.pageWritten_freeCount (s : State) :
    s.pageWritten.freeCount = s.freeCount := rfl

/-! ### `jumped` -/

@[simp] theorem State.jumped_cfg (s : State) : s.jumped.cfg = s.cfg := rfl

@[simp] theorem State.jumped_link (s : State) : s.jumped.link = s.link := rfl

@[simp] theorem State.jumped_chan (s : State) : s.jumped.chan = s.chan := rfl

@[simp] theorem State.jumped_seq (s : State) :
    s.jumped.seq = { s.seq with
      goIssued := true, sstate := .jumped, sdone := true, sbusy := false, step := .done } := rfl

@[simp] theorem State.jumped_faults (s : State) : s.jumped.faults = s.faults := rfl

@[simp] theorem State.jumped_source (s : State) : s.jumped.source = s.source := rfl

@[simp] theorem State.jumped_turns (s : State) : s.jumped.turns = s.turns := rfl

@[simp] theorem State.jumped_portOut (s : State) : s.jumped.portOut = s.portOut := rfl

@[simp] theorem State.jumped_freeCount (s : State) : s.jumped.freeCount = s.freeCount := rfl

/-! ### `flashSizeKnown` -/

@[simp] theorem State.flashSizeKnown_cfg (bs : List Byte) (s : State) :
    (s.flashSizeKnown bs).cfg = s.cfg := rfl

@[simp] theorem State.flashSizeKnown_link (bs : List Byte) (s : State) :
    (s.flashSizeKnown bs).link = s.link := rfl

@[simp] theorem State.flashSizeKnown_chan (bs : List Byte) (s : State) :
    (s.flashSizeKnown bs).chan = s.chan := rfl

@[simp] theorem State.flashSizeKnown_seq (bs : List Byte) (s : State) :
    (s.flashSizeKnown bs).seq = { s.seq with
      flashKb := flashKB (bs.headD 0) (bs.tail.headD 0), fsizeValid := true
      sstate := .flashSizeKnown, step := .erase, sub := 0, tries := 0 } := rfl

@[simp] theorem State.flashSizeKnown_faults (bs : List Byte) (s : State) :
    (s.flashSizeKnown bs).faults = s.faults := rfl

@[simp] theorem State.flashSizeKnown_source (bs : List Byte) (s : State) :
    (s.flashSizeKnown bs).source = s.source := rfl

@[simp] theorem State.flashSizeKnown_turns (bs : List Byte) (s : State) :
    (s.flashSizeKnown bs).turns = s.turns := rfl

@[simp] theorem State.flashSizeKnown_portOut (bs : List Byte) (s : State) :
    (s.flashSizeKnown bs).portOut = s.portOut := rfl

@[simp] theorem State.flashSizeKnown_freeCount (bs : List Byte) (s : State) :
    (s.flashSizeKnown bs).freeCount = s.freeCount := rfl

end Sys2Proof.Machine
end

