-- ==== Sys2Proof/Laws/Ops.lean ====
section
/-!
SUPPORT. What each shared operation can do, said once: recording a fault, taking a request, ending a
wait, counting up, and the moves of a session.
-/

namespace Sys2Proof.Machine

/-! ### Recording a fault -/

/-- A fault changes `FAULTS` alone. -/
theorem State.raise_eq (r : FaultReason) (s : State) :
    s.raise r = { s with faults := (s.raise r).faults } := by
  unfold State.raise
  split <;> rfl

@[simp] theorem State.raise_cfg (r : FaultReason) (s : State) : (s.raise r).cfg = s.cfg := by
  rw [State.raise_eq]
@[simp] theorem State.raise_link (r : FaultReason) (s : State) : (s.raise r).link = s.link := by
  rw [State.raise_eq]
@[simp] theorem State.raise_chan (r : FaultReason) (s : State) : (s.raise r).chan = s.chan := by
  rw [State.raise_eq]
@[simp] theorem State.raise_seq (r : FaultReason) (s : State) : (s.raise r).seq = s.seq := by
  rw [State.raise_eq]
@[simp] theorem State.raise_source (r : FaultReason) (s : State) :
    (s.raise r).source = s.source := by
  rw [State.raise_eq]
@[simp] theorem State.raise_turns (r : FaultReason) (s : State) : (s.raise r).turns = s.turns := by
  rw [State.raise_eq]
@[simp] theorem State.raise_portOut (r : FaultReason) (s : State) :
    (s.raise r).portOut = s.portOut := by
  rw [State.raise_eq]
@[simp] theorem State.raise_freeCount (r : FaultReason) (s : State) :
    (s.raise r).freeCount = s.freeCount := by
  rw [State.raise_eq]

/-- The reason joins the set. -/
@[simp] theorem State.mem_raise_faults (r x : FaultReason) (s : State) :
    x ∈ (s.raise r).faults ↔ x ∈ s.faults ∨ x = r := by
  unfold State.raise
  split
  · rename_i h
    constructor
    · exact .inl
    · rintro (h' | rfl)
      · exact h'
      · exact h
  · simp

/-- `FAULTS` stays a set. -/
theorem State.raise_nodup (r : FaultReason) (s : State) (h : s.faults.Nodup) :
    (s.raise r).faults.Nodup := by
  unfold State.raise
  split
  · exact h
  · rename_i hr
    exact List.nodup_append.2 ⟨h, List.nodup_singleton r, by
      rintro a ha b hb rfl
      exact hr (List.mem_singleton.1 hb ▸ ha)⟩

/-- `State.raise` is `fault(reason)` of R344. -/
theorem recordsFault_raise (r : FaultReason) (s : State) :
    RecordsFault r s (.next (s.raise r)) :=
  ⟨(s.raise r).faults, fun x => State.mem_raise_faults r x s, congrArg _ (State.raise_eq r s)⟩

/-! ### Taking a request -/

theorem whenIdle_idle {s : State} (h : s.link.lstate = .idle) (t : State) :
    whenIdle s t = .next t := if_pos h

theorem whenIdle_busy {s : State} (h : s.link.lstate ≠ .idle) (t : State) :
    whenIdle s t = .next (s.raise .clientBusyWrite) := if_neg h

/-- A request answers a next state: the accepted one, or the recorded fault. -/
theorem whenIdle_next {s t u : State} (h : whenIdle s t = .next u) :
    (s.link.lstate = .idle ∧ u = t) ∨
      (s.link.lstate ≠ .idle ∧ u = s.raise .clientBusyWrite) := by
  unfold whenIdle at h
  split at h
  · rename_i hi
    cases h
    exact .inl ⟨hi, rfl⟩
  · rename_i hi
    cases h
    exact .inr ⟨hi, rfl⟩

/-- The state an idle engine leaves on a request: R163 operation by operation. -/
def accepted (i : Instr) (s : State) : State :=
  match i with
  | .probe => (s.latchRequest .probe).startTx encProbe s.cfg.shortPolls 1
  | .sendCmd c =>
    (s.latchRequest (.sendCmd c)).startTx (encCmd c) s.cfg.longPolls s.cfg.cmdAttempts
  | .sendFrame n =>
    if Instr.frameLenOk n then
      match s.txPayload n.toNat with
      | some p => (s.latchRequest (.sendFrame n)).startTx (encFrame p) s.cfg.longPolls 1
      | none => s.raise .txbufUnwritten
    else s.badRequest (encode (.sendFrame n))
  | .waitAck => (s.latchRequest .waitAck).startWait s.link.budget
  | .readByte => (s.latchRequest .readByte).startRx 1 (rxBudget s.cfg)
  | .readBytes n =>
    if Instr.readLenOk n then (s.latchRequest (.readBytes n)).startRx n.toNat (rxBudget s.cfg)
    else s.badRequest (encode (.readBytes n))
  | .flushRx => (s.latchRequest .flushRx).chanFlush.finish .ok
  | .setEvenParity => (s.latchRequest .setEvenParity).chanSetEvenParity.setParEven.finish .ok
  | .seqStart resume =>
    if s.seq.sbusy then s.raise .clientBusyWrite
    else if s.cfg.seqPresent then
      ((s.latchRequest (.seqStart resume)).startSession resume).finish .ok
    else s.badRequest (encode (.seqStart resume))

theorem exec_eq (i : Instr) (s : State) : exec i s = whenIdle s (accepted i s) := by
  cases i <;> rfl

/-- Every operation answers a next state, whatever the state. -/
theorem exec_next (i : Instr) (s : State) : ∃ t, exec i s = .next t := by
  rw [exec_eq]
  unfold whenIdle
  split <;> exact ⟨_, rfl⟩

theorem exec_idle {s : State} (h : s.link.lstate = .idle) (i : Instr) :
    exec i s = .next (accepted i s) := by
  rw [exec_eq, whenIdle_idle h]

/-- The payload of `SEND_FRAME` is `TXBUF[0..n)`, where all of it was written. -/
theorem txPayload_eq_some {s : State} {n : Nat} {p : List Byte} :
    s.txPayload n = some p ↔ p.length = n ∧ ∀ i < n, s.link.txbuf.read i = p[i]? := by
  unfold State.txPayload
  rw [Memory.readRange_eq_some]
  simp only [Nat.zero_add]

theorem txPayload_isSome {s : State} {n : Nat} :
    (s.txPayload n).isSome ↔ ∀ i < n, (s.link.txbuf.read i).isSome := by
  unfold State.txPayload
  rw [Memory.readRange_isSome]
  simp only [Nat.zero_add]

theorem rxBudget_eq (c : Config) : rxBudget c = c.readPolls.getD 0 := by
  unfold rxBudget
  cases c.readPolls <;> rfl

/-! ### Ending a wait -/

theorem classify_cases (b : Byte) :
    classify b = if b = 0x79 then .ok else if b = 0x1F then .nack else .unexpected := rfl

/-- The end of a wait: `OK` finishes; another outcome re-issues while an attempt is left and
otherwise finishes with its code (R167). -/
theorem State.endWait_eq (o : AckOutcome) (s : State) :
    s.endWait o =
      if o ≠ .ok ∧ 1 < s.link.attempts then s.reissue else s.finish o.result := by
  unfold State.endWait State.resolve
  cases o <;> by_cases h : 1 < s.link.attempts <;>
    simp [h, State.finish, State.reissue, AckOutcome.result]

/-! ### Counting up -/

/-- A counter counted up: one more, or past 0xFFFFFFFF a free value; nothing but the model's own count
of free values changes. -/
theorem State.countUp_cases (w : Word) (s : State) :
    (w ≠ 0xFFFFFFFF ∧ s.countUp w = (w + 1, s)) ∨
      (w = 0xFFFFFFFF ∧ ∃ v n, s.countUp w = (v, { s with freeCount := n })) := by
  unfold State.countUp
  by_cases h : w = 0xFFFFFFFF
  · rw [if_pos h]
    exact .inr ⟨h, _, _, rfl⟩
  · rw [if_neg h]
    exact .inl ⟨h, rfl⟩

theorem word_add_one_toNat {w : Word} (h : w ≠ 0xFFFFFFFF) : (w + 1).toNat = w.toNat + 1 := by
  have h1 : w.toNat ≠ 4294967295 := fun e => h (BitVec.eq_of_toNat_eq e)
  have h2 := w.isLt
  have h3 : (1 : Word).toNat = 1 := rfl
  rw [BitVec.toNat_add, h3]
  omega

/-! ### Moves of a session -/

/-- A failed attempt: `TRIES` takes the new count, and the session fails for good or redoes the step
(R286). Nothing but the session and the count of free values changes. -/
theorem State.stepFail_cases (st : FailStep) (a : Word) (s : State) :
    ∃ w n, (s.seq.tries ≠ 0xFFFFFFFF → w = s.seq.tries + 1 ∧ n = s.freeCount) ∧
      ((∀ k, s.cfg.stepRetryLimit = some k → w.toNat < k) →
        s.stepFail st a = { s with freeCount := n, seq := { s.seq with tries := w, sub := 0 } }) ∧
      (∀ k, s.cfg.stepRetryLimit = some k → k ≤ w.toNat →
        s.stepFail st a = { s with
          freeCount := n
          seq := { s.seq with
            tries := w, sstate := .failed, failStep := st, failResult := s.link.result
            failAddr := a, sdone := true, sbusy := false, step := .done } }) := by
  rcases State.countUp_cases s.seq.tries s with ⟨h, e⟩ | ⟨h, v, n, e⟩
  · refine ⟨s.seq.tries + 1, s.freeCount, fun _ => ⟨rfl, rfl⟩, fun hk => ?_, fun k hk hle => ?_⟩
    · unfold State.stepFail
      rw [e]
      dsimp only
      cases hl : s.cfg.stepRetryLimit with
      | none => rfl
      | some k =>
        have := hk k hl
        dsimp only
        rw [if_neg (by omega)]
        rfl
    · unfold State.stepFail
      rw [e, hk]
      dsimp only
      rw [if_pos hle]
      rfl
  · refine ⟨v, n, fun hne => absurd h hne, fun hk => ?_, fun k hk hle => ?_⟩
    · unfold State.stepFail
      rw [e]
      dsimp only
      cases hl : s.cfg.stepRetryLimit with
      | none => rfl
      | some k =>
        have := hk k hl
        dsimp only
        rw [if_neg (by omega)]
        rfl
    · unfold State.stepFail
      rw [e, hk]
      dsimp only
      rw [if_pos hle]
      rfl

/-- What a failed attempt leaves: it redoes the step, or it ends the session as failed. -/
theorem State.stepFail_outcome (st : FailStep) (a : Word) (s : State) :
    ∃ w n,
      s.stepFail st a = { s with freeCount := n, seq := { s.seq with tries := w, sub := 0 } } ∨
      s.stepFail st a = { s with
        freeCount := n
        seq := { s.seq with
          tries := w, sstate := .failed, failStep := st, failResult := s.link.result
          failAddr := a, sdone := true, sbusy := false, step := .done } } := by
  obtain ⟨w, n, -, h1, h2⟩ := State.stepFail_cases st a s
  refine ⟨w, n, ?_⟩
  cases hl : s.cfg.stepRetryLimit with
  | none =>
    refine .inl (h1 fun k hk => ?_)
    rw [hl] at hk
    cases hk
  | some k =>
    by_cases hw : k ≤ w.toNat
    · exact .inr (h2 k hl hw)
    · refine .inl (h1 fun j hj => ?_)
      rw [hl] at hj
      cases hj
      omega

/-- A restart: `RESTARTS` takes the new count, and the session fails for good or starts again (R297). -/
theorem State.restart_cases (s : State) :
    ∃ w n, (s.seq.restarts ≠ 0xFFFFFFFF → w = s.seq.restarts + 1 ∧ n = s.freeCount) ∧
      ((∀ k, s.cfg.restartLimit = some k → w.toNat ≤ k) →
        s.restart = { s with
          freeCount := n
          seq := { s.seq with
            restarts := w, ctValid := 0, idLen := 0, flashKb := 0, fsizeValid := false, tries := 0
            probes := 0, resume := false, sstate := .disconnected, step := .probe, sub := 0 } }) ∧
      (∀ k, s.cfg.restartLimit = some k → k < w.toNat →
        s.restart = { s with
          freeCount := n
          seq := { s.seq with
            restarts := w, sstate := .failed, failStep := .restartLimit, failResult := .ok
            failAddr := 0, sdone := true, sbusy := false, step := .done } }) := by
  rcases State.countUp_cases s.seq.restarts s with ⟨h, e⟩ | ⟨h, v, n, e⟩
  · refine ⟨s.seq.restarts + 1, s.freeCount, fun _ => ⟨rfl, rfl⟩, fun hk => ?_, fun k hk hle => ?_⟩
    · unfold State.restart
      rw [e]
      dsimp only
      cases hl : s.cfg.restartLimit with
      | none => rfl
      | some k =>
        have := hk k hl
        dsimp only
        rw [if_neg (by omega)]
        rfl
    · unfold State.restart
      rw [e, hk]
      dsimp only
      rw [if_pos hle]
      rfl
  · refine ⟨v, n, fun hne => absurd h hne, fun hk => ?_, fun k hk hle => ?_⟩
    · unfold State.restart
      rw [e]
      dsimp only
      cases hl : s.cfg.restartLimit with
      | none => rfl
      | some k =>
        have := hk k hl
        dsimp only
        rw [if_neg (by omega)]
        rfl
    · unfold State.restart
      rw [e, hk]
      dsimp only
      rw [if_pos hle]
      rfl

/-- What a restart leaves: a session that probes again, or one that failed. -/
theorem State.restart_outcome (s : State) :
    ∃ w n,
      s.restart = { s with
        freeCount := n
        seq := { s.seq with
          restarts := w, ctValid := 0, idLen := 0, flashKb := 0, fsizeValid := false, tries := 0
          probes := 0, resume := false, sstate := .disconnected, step := .probe, sub := 0 } } ∨
      s.restart = { s with
        freeCount := n
        seq := { s.seq with
          restarts := w, sstate := .failed, failStep := .restartLimit, failResult := .ok
          failAddr := 0, sdone := true, sbusy := false, step := .done } } := by
  obtain ⟨w, n, -, h1, h2⟩ := State.restart_cases s
  refine ⟨w, n, ?_⟩
  cases hl : s.cfg.restartLimit with
  | none =>
    refine .inl (h1 fun k hk => ?_)
    rw [hl] at hk
    cases hk
  | some k =>
    by_cases hw : k < w.toNat
    · exact .inr (h2 k hl hw)
    · refine .inl (h1 fun j hj => ?_)
      rw [hl] at hj
      cases hj
      omega

/-- A failed probe: one more in `PROBES`, and the session fails for good or probes again (R289). -/
theorem State.probeFailed_outcome (s : State) :
    s.probeFailed = { s with seq := { s.seq with probes := s.seq.probes + 1, sub := 1 } } ∨
      s.probeFailed = { s with
        seq := { s.seq with
          probes := s.seq.probes + 1, sstate := .failed, failStep := .probe
          failResult := s.link.result, failAddr := 0, sdone := true, sbusy := false
          step := .done } } := by
  unfold State.probeFailed
  dsimp only
  cases hl : s.cfg.probeLimit with
  | none => exact .inl rfl
  | some k =>
    dsimp only
    split
    · exact .inr rfl
    · exact .inl rfl

end Sys2Proof.Machine
end

