-- ==== Sys2Proof/Laws/Step.lean ====
section
/-!
SUPPORT. What a step can do, said once per agent: the operations' accepting step, the engine's step, the
Sequencer's step, a client access, and one move of the machine.
-/

namespace Sys2Proof.Machine

/-! ### The accepting step -/

/-- What an accepting step leaves unchanged, whatever the operation: the histories, the byte arrays and
the environment. -/
theorem accepted_frame (i : Instr) (s : State) :
    (accepted i s).cfg = s.cfg ∧ (accepted i s).chan.txlog = s.chan.txlog ∧
      (accepted i s).chan.ticks = s.chan.ticks ∧
      (accepted i s).link.txbuf = s.link.txbuf ∧ (accepted i s).link.rxbuf = s.link.rxbuf ∧
      (accepted i s).link.budget = s.link.budget ∧ (accepted i s).link.lastRx = s.link.lastRx ∧
      (accepted i s).source = s.source ∧ (accepted i s).turns = s.turns ∧
      (accepted i s).portOut = s.portOut ∧ (accepted i s).freeCount = s.freeCount ∧
      (∀ r, r ∈ s.faults → r ∈ (accepted i s).faults) ∧
      (s.link.parEven = true → (accepted i s).link.parEven = true) ∧
      (s.link.rv = true → (accepted i s).link.rv = true) := by
  cases i <;> unfold accepted <;> (repeat' split) <;> simp_all

/-- Only FLUSH_RX empties the receive FIFO, only SET_EVEN_PARITY touches the parity, only SEQ_START
touches the Sequencer. -/
theorem accepted_only (i : Instr) (s : State) :
    (i ≠ .flushRx → (accepted i s).chan.rxfifo = s.chan.rxfifo) ∧
      (i ≠ .setEvenParity →
        (accepted i s).chan.chpar = s.chan.chpar ∧ (accepted i s).link.parEven = s.link.parEven) ∧
      ((∀ r, i ≠ .seqStart r) → (accepted i s).seq = s.seq) ∧
      ((accepted i s).chan.rxfifo = s.chan.rxfifo ∨ (accepted i s).chan.rxfifo = []) := by
  cases i <;> unfold accepted <;> (repeat' split) <;> simp_all

/-! ### The engine's step -/

/-- A budget of the read is used up: it is bounded, and no poll is left for this byte. -/
abbrev State.rxSpent (s : State) : Prop := s.cfg.readPolls.isSome = true ∧ s.link.rxpolls = 0

theorem State.lastTickUnseen.spent {s : State} (h : s.lastTickUnseen) : s.rxSpent :=
  ⟨by
    cases hk : s.cfg.readPolls with
    | none => exact absurd (by simp [rxBudget, hk]) h.2.1
    | some k => rfl, h.2.2⟩

/-- A receive step finds a byte it may take. -/
theorem rxStep_byte {s : State} {b : Byte} {rest : List Byte} (hf : s.chan.rxfifo = b :: rest)
    (hu : ¬ s.lastTickUnseen) (hl : s.link.rxcnt < Arr.rxbuf.size) :
    rxStep s = .next
      (({ s with chan := { s.chan with rxfifo := rest } } : State).storeRx b).afterStored := by
  unfold rxStep State.chanRead
  rw [if_neg hu, hf]
  exact if_pos hl

/-- A receive step on an empty FIFO with the budget used up. -/
theorem rxStep_spent {s : State} (hf : s.chan.rxfifo = []) (hs : s.rxSpent) :
    rxStep s = .next (s.finish .timeout) := by
  unfold rxStep State.chanRead
  rw [hf]
  simp only [if_pos hs, ite_self]

/-- A receive step on an empty FIFO with budget left. -/
theorem rxStep_tick {s : State} (hf : s.chan.rxfifo = []) (hs : ¬ s.rxSpent) :
    rxStep s = .next s.tick.spendRxPoll := by
  unfold rxStep State.chanRead
  rw [if_neg (fun h => hs h.spent), hf]
  exact if_neg hs

/-- All a receive step can do. -/
theorem rxStep_cases (s : State) :
    (s.rxSpent ∧ rxStep s = .next (s.finish .timeout)) ∨
      (∃ b rest, s.chan.rxfifo = b :: rest ∧ s.link.rxcnt < Arr.rxbuf.size ∧ rxStep s = .next
        (({ s with chan := { s.chan with rxfifo := rest } } : State).storeRx b).afterStored) ∨
      (s.chan.rxfifo = [] ∧ rxStep s = .next s.tick.spendRxPoll) ∨
      (Arr.rxbuf.size ≤ s.link.rxcnt ∧ rxStep s = .fault .rxbufPastEnd) := by
  by_cases hu : s.lastTickUnseen
  · exact .inl ⟨hu.spent, if_pos hu⟩
  · cases hf : s.chan.rxfifo with
    | nil =>
      by_cases hs : s.rxSpent
      · exact .inl ⟨hs, rxStep_spent hf hs⟩
      · exact .inr (.inr (.inl ⟨rfl, rxStep_tick hf hs⟩))
    | cons b rest =>
      by_cases hl : s.link.rxcnt < Arr.rxbuf.size
      · exact .inr (.inl ⟨b, rest, rfl, hl, rxStep_byte hf hu hl⟩)
      · refine .inr (.inr (.inr ⟨Nat.not_lt.1 hl, ?_⟩))
        unfold rxStep State.chanRead
        rw [if_neg hu, hf]
        exact if_neg hl

/-- What the engine's step leaves unchanged: everything outside the link and the channel, and of these
the client's registers and the parity. -/
theorem engineStep_frame {s t : State} (h : engineStep s = .next t) :
    t = { s with link := t.link, chan := t.chan } ∧
      t.link.budget = s.link.budget ∧ t.link.txbuf = s.link.txbuf ∧
      t.link.parEven = s.link.parEven ∧ (s.link.rv = true → t.link.rv = true) ∧
      t.chan.chpar = s.chan.chpar ∧
      (t.chan.txlog = s.chan.txlog ∨
        s.link.lstate = .tx ∧ ∃ b, s.link.txq[s.link.txptr]? = some b ∧
          t.chan.txlog = s.chan.txlog ++ [b]) ∧
      (t.link.lastRx = s.link.lastRx ∨
        s.link.lstate = .ackwait ∧ s.chan.rxfifo = t.link.lastRx :: t.chan.rxfifo) := by
  unfold engineStep at h
  split at h
  · cases h
    simp
  · rename_i hl
    unfold txStep at h
    split at h
    · rename_i b hb
      cases h
      unfold State.afterSent
      split <;> simp [hl, hb, State.chanWrite]
    · cases h
  · rename_i hl
    cases h
    unfold ackStep
    split
    · rw [State.endWait_eq]
      split <;> simp [State.reissue, State.finish]
    · unfold State.chanRead
      cases hf : s.chan.rxfifo with
      | nil => simp [State.tick, State.spendPoll]
      | cons b rest =>
        simp only
        rw [State.endWait_eq]
        split <;> simp [hl, State.reissue, State.finish, State.setLastRx]
  · rename_i hl
    rcases rxStep_cases s with ⟨-, e⟩ | ⟨b, rest, hf, -, e⟩ | ⟨-, e⟩ | ⟨-, e⟩ <;> rw [e] at h <;> cases h
    · simp [State.finish]
    · unfold State.afterStored
      split <;> simp [State.storeRx, State.finish]
    · unfold State.spendRxPoll
      split <;> simp [State.tick]

/-! ### The Sequencer's step -/

/-- A length the request word can hold is its own field. -/
theorem lenField_eq {n : Nat} (h : n < 512) : lenField n = BitVec.ofNat 9 n := by
  unfold lenField
  rw [Nat.min_eq_left (by omega)]

/-- What a call writes before its request leaves all but `TXBUF` and `BUDGET` unchanged. -/
theorem LinkCall.prepare_eq (call : LinkCall) (s : State) :
    call.prepare s = { s with
      link := { s.link with
        txbuf := (call.prepare s).link.txbuf, budget := (call.prepare s).link.budget } } := by
  cases call <;> rfl

/-- The two things a step of the Sequencer can do. -/
inductive SeqMove (s : State) : State → Prop where
  /-- It issues a call, having changed its own state only; it never sets the parity and flushes in
  step `PROBE` only. -/
  | call (call : LinkCall) (q : Session) (noParity : call ≠ .parity)
      (flush : call = .flush → s.seq.step = .probe ∧ s.seq.sub = 0) :
      SeqMove s (accepted call.request (call.prepare { s with seq := q }))
  /-- It changes its own state, pulls the page source, records a fault or uses a free value. -/
  | quiet (q : Session) (f : List FaultReason) (n : Nat) (src : List PageItem)
      (faults : ∀ r, r ∈ s.faults → r ∈ f) :
      SeqMove s { s with seq := q, faults := f, freeCount := n, source := src }

theorem SeqMove.same (s : State) : SeqMove s s := .quiet s.seq s.faults s.freeCount s.source fun _ h => h

theorem SeqMove.ofSeq (s : State) (q : Session) : SeqMove s { s with seq := q } :=
  .quiet q s.faults s.freeCount s.source fun _ h => h

theorem SeqMove.raised (r : FaultReason) (s : State) : SeqMove s (s.raise r) := by
  rw [State.raise_eq]
  exact .quiet s.seq _ s.freeCount s.source fun x hx => (State.mem_raise_faults r x s).2 (.inl hx)

theorem SeqMove.raisedAfter (r : FaultReason) (s : State) (q : Session) :
    SeqMove s (({ s with seq := q } : State).raise r) := by
  rw [State.raise_eq]
  exact .quiet q _ s.freeCount s.source fun x hx => (State.mem_raise_faults r x _).2 (.inl hx)

theorem SeqMove.stepFailed (st : FailStep) (a : Word) (s : State) : SeqMove s (s.stepFail st a) := by
  obtain ⟨w, n, h | h⟩ := State.stepFail_outcome st a s <;> rw [h] <;>
    exact .quiet _ s.faults n s.source fun _ h => h

theorem SeqMove.restarted (s : State) : SeqMove s s.restart := by
  obtain ⟨w, n, h | h⟩ := State.restart_outcome s <;> rw [h] <;>
    exact .quiet _ s.faults n s.source fun _ h => h

/-- A call issued while the engine is idle. -/
theorem callAt_move {k : Nat} {call : LinkCall} {s t : State} {q : Session}
    (hi : s.link.lstate = .idle)
    (noParity : call ≠ .parity) (flush : call = .flush → s.seq.step = .probe ∧ s.seq.sub = 0)
    (h : callAt k call { s with seq := q } = .next t) : SeqMove s t := by
  unfold callAt LinkCall.issue at h
  rw [exec_idle (by rw [LinkCall.prepare_eq]; exact hi)] at h
  cases h
  exact .call call { q with sub := k } noParity flush

/-- Reading a Command Table entry: the continuation, or the recorded fault. -/
theorem withCt_next {i : Nat} {s t : State} {k : Byte → Host.Outcome State Fault Refusal}
    (h : withCt i s k = .next t) :
    (∃ op, s.ctEntry i = some op ∧ k op = .next t) ∨ t = s.raise .ctUnfilled := by
  unfold withCt at h
  split at h
  · rename_i op hop
    exact .inl ⟨op, hop, h⟩
  · cases h
    exact .inr rfl

/-- Taking a reply: the continuation, or the recorded fault. -/
theorem withReply_next {n : Nat} {s t : State} {k : List Byte → Host.Outcome State Fault Refusal}
    (h : withReply n s k = .next t) :
    (∃ bs, s.link.rxbuf.readRange 0 n = some bs ∧ k bs = .next t) ∨
      t = s.raise .rxbufUnwritten := by
  unfold withReply at h
  split at h
  · rename_i bs hbs
    exact .inl ⟨bs, hbs, h⟩
  · cases h
    exact .inr rfl

/-- The count of the table being read: the continuation, or the recorded fault. -/
theorem withCount_next {s t : State} {k : Nat → Host.Outcome State Fault Refusal}
    (h : withCount s k = .next t) :
    (∃ n, s.seq.ct.read 0 = some n ∧ k n.toNat = .next t) ∨ t = s.raise .ctUnfilled := by
  unfold withCount at h
  split at h
  · rename_i n hn
    exact .inl ⟨n, hn, h⟩
  · cases h
    exact .inr rfl

/-- Where a transaction stands, by how many of its calls were issued. -/
theorem progress_cases (t : List LinkCall) (k : Nat) (ok : Bool) :
    (t.length < k ∧ progress t k ok = .outOfRange) ∨
      (0 < k ∧ k ≤ t.length ∧ ok = false ∧ progress t k ok = .failed) ∨
      (∃ call, t[k]? = some call ∧ (k = 0 ∨ ok = true) ∧ progress t k ok = .issue call) ∨
      (k = t.length ∧ (k = 0 ∨ ok = true) ∧ progress t k ok = .succeeded) := by
  unfold progress
  by_cases h1 : t.length < k
  · simp [h1]
  · by_cases h2 : 0 < k ∧ ok = false
    · simp [h1, h2]
      omega
    · have h3 : k = 0 ∨ ok = true := by
        cases ok <;> simp at h2 ⊢
        exact h2
      rw [if_neg h1, if_neg h2]
      cases hk : t[k]? with
      | none =>
        have := List.getElem?_eq_none_iff.1 hk
        have he : k = t.length := by omega
        simp only [h3]
        simp [he]
      | some call => simp [h3]

/-- One move of a step that runs a transaction: a call of the transaction, or one of the two ends. -/
theorem runTransaction_next {tr : List LinkCall} {s a b t : State}
    (h : runTransaction tr s a b = .next t) :
    (∃ call, tr[s.seq.sub]? = some call ∧ (s.seq.sub = 0 ∨ s.resultOk = true) ∧
      callAt (s.seq.sub + 1) call s = .next t) ∨
      (0 < s.seq.sub ∧ s.seq.sub ≤ tr.length ∧ s.resultOk = false ∧ t = a) ∨
      (s.seq.sub = tr.length ∧ (s.seq.sub = 0 ∨ s.resultOk = true) ∧ t = b) := by
  unfold runTransaction at h
  rcases progress_cases tr s.seq.sub s.resultOk with ⟨-, e⟩ | ⟨h1, h2, h3, e⟩ | ⟨c, h1, h2, e⟩ | ⟨h1, h2, e⟩ <;>
    rw [e] at h
  · cases h
  · cases h
    exact .inr (.inl ⟨h1, h2, h3, rfl⟩)
  · exact .inl ⟨c, h1, h2, h⟩
  · cases h
    exact .inr (.inr ⟨h1, h2, rfl⟩)

/-- A transaction's move, its calls not being flushes. -/
theorem runTransaction_move {tr : List LinkCall} {s a b t : State} (hi : s.link.lstate = .idle)
    (hp : LinkCall.parity ∉ tr) (hf : LinkCall.flush ∉ tr) (ha : SeqMove s a) (hb : SeqMove s b)
    (h : runTransaction tr s a b = .next t) : SeqMove s t := by
  rcases runTransaction_next h with ⟨c, hc, -, h⟩ | ⟨-, -, -, rfl⟩ | ⟨-, -, rfl⟩
  · have hm := List.mem_of_getElem? hc
    exact callAt_move (q := s.seq) hi (fun e => hp (e ▸ hm)) (fun e => absurd (e ▸ hm) hf) h
  · exact ha
  · exact hb

theorem probeStep_move {s t : State} (hi : s.link.lstate = .idle) (hp : s.seq.step = .probe)
    (h : probeStep s = .next t) : SeqMove s t := by
  unfold probeStep at h
  split at h
  · rename_i h0
    exact callAt_move (q := s.seq) hi (by rintro ⟨⟩) (fun _ => ⟨hp, h0⟩) h
  · exact callAt_move (q := s.seq) hi (by rintro ⟨⟩) (by rintro ⟨⟩) h
  · split at h <;> cases h
    · exact SeqMove.ofSeq s _
    · rcases State.probeFailed_outcome s with e | e <;> rw [e] <;> exact SeqMove.ofSeq s _
  · cases h

theorem identifyStep_move {s t : State} (hi : s.link.lstate = .idle)
    (h : identifyStep s = .next t) : SeqMove s t := by
  unfold identifyStep at h
  split at h
  · exact callAt_move (q := _) hi (by rintro ⟨⟩) (by rintro ⟨⟩) h
  split at h
  · cases h
  split at h
  · cases h
    exact .stepFailed ..
  split at h
  · exact callAt_move (q := s.seq) hi (by rintro ⟨⟩) (by rintro ⟨⟩) h
  · rcases withReply_next h with ⟨bs, -, h⟩ | rfl
    · dsimp only at h
      split at h
      · exact callAt_move (q := _) hi (by rintro ⟨⟩) (by rintro ⟨⟩) h
      · cases h
        exact .raisedAfter ..
    · exact .raised ..
  · rcases withReply_next h with ⟨bs, -, h⟩ | rfl
    · rcases withCount_next h with ⟨n, -, h⟩ | rfl
      · split at h
        · exact callAt_move (q := _) hi (by rintro ⟨⟩) (by rintro ⟨⟩) h
        · exact callAt_move (q := _) hi (by rintro ⟨⟩) (by rintro ⟨⟩) h
      · exact .raised ..
    · exact .raised ..
  · rcases withCount_next h with ⟨n, -, h⟩ | rfl
    · rcases withReply_next h with ⟨bs, -, h⟩ | rfl
      · exact callAt_move (q := _) hi (by rintro ⟨⟩) (by rintro ⟨⟩) h
      · exact .raised ..
    · exact .raised ..
  · rcases withCt_next h with ⟨op, -, h⟩ | rfl
    · exact callAt_move (q := s.seq) hi (by rintro ⟨⟩) (by rintro ⟨⟩) h
    · exact .raised ..
  · exact callAt_move (q := s.seq) hi (by rintro ⟨⟩) (by rintro ⟨⟩) h
  · rcases withReply_next h with ⟨bs, -, h⟩ | rfl
    · dsimp only at h
      split at h
      · exact callAt_move (q := _) hi (by rintro ⟨⟩) (by rintro ⟨⟩) h
      · cases h
        exact .raisedAfter ..
    · exact .raised ..
  · rcases withReply_next h with ⟨bs, -, h⟩ | rfl
    · exact callAt_move (q := _) hi (by rintro ⟨⟩) (by rintro ⟨⟩) h
    · exact .raised ..
  · cases h
    exact SeqMove.ofSeq s _

theorem flashSizeStep_move {s t : State} (hi : s.link.lstate = .idle)
    (h : flashSizeStep s = .next t) : SeqMove s t := by
  rcases withCt_next h with ⟨op, -, h⟩ | rfl
  · rcases progress_cases (ispReadMem op Config.flashSizeAddr 2) s.seq.sub s.resultOk with
      ⟨-, e⟩ | ⟨-, -, -, e⟩ | ⟨c, hc, -, e⟩ | ⟨-, -, e⟩ <;> simp only [e] at h
    · cases h
    · cases h
      unfold State.flashSizeFailed
      split
      · exact SeqMove.ofSeq s _
      · exact .stepFailed ..
    · have hm := List.mem_of_getElem? hc
      refine callAt_move (q := s.seq) hi (fun e => ?_) (fun e => ?_) h <;>
        simp [e, ispReadMem] at hm
    · rcases withReply_next h with ⟨bs, -, h⟩ | rfl
      · cases h
        exact SeqMove.ofSeq s _
      · exact .raised ..
  · exact .raised ..

theorem pullStep_move {s t : State} (h : pullStep s = .next t) : SeqMove s t := by
  unfold pullStep at h
  split at h
  · cases h
    exact .same s
  · split at h <;> cases h
    · exact .quiet _ s.faults s.freeCount _ fun _ h => h
    · exact .raised ..
  · cases h
    exact .quiet _ s.faults s.freeCount _ fun _ h => h
  · cases h
    exact .quiet _ s.faults s.freeCount _ fun _ h => h
  · cases h
    exact .quiet _ s.faults s.freeCount _ fun _ h => h

/-- Every step of the Sequencer over an idle engine is one of the two moves. -/
theorem seqStep_move {s t : State} (hi : s.link.lstate = .idle) (h : seqStep s = .next t) :
    SeqMove s t := by
  unfold seqStep at h
  split at h
  · rename_i hp
    exact probeStep_move hi hp h
  · exact identifyStep_move hi h
  · exact flashSizeStep_move hi h
  · rcases withCt_next h with ⟨op, -, h⟩ | rfl
    · exact runTransaction_move hi (by simp [ispRdUnp]) (by simp [ispRdUnp]) (.stepFailed ..) (.restarted s) h
    · exact .raised ..
  · rcases withCt_next h with ⟨op, -, h⟩ | rfl
    · exact runTransaction_move hi (by simp [ispErase]) (by simp [ispErase]) (.stepFailed ..) (SeqMove.ofSeq s _) h
    · exact .raised ..
  · unfold programStep at h
    split at h
    · split at h
      · exact pullStep_move h
      · cases h
    · rcases withCt_next h with ⟨op, -, h⟩ | rfl
      · exact runTransaction_move hi (by simp [ispWriteMem]) (by simp [ispWriteMem]) (.stepFailed ..) (SeqMove.ofSeq s _) h
      · exact .raised ..
  · unfold goStep at h
    split at h
    · cases h
      exact SeqMove.ofSeq s _
    · rcases withCt_next h with ⟨op, -, h⟩ | rfl
      · exact runTransaction_move hi (by simp [ispGo]) (by simp [ispGo]) (.stepFailed ..) (SeqMove.ofSeq s _) h
      · exact .raised ..
  · cases h
  · cases h

/-! ### A client's access -/

/-- What one access of a client can do. -/
inductive PortMove (s : State) : State → Prop where
  /-- A fault is recorded. -/
  | fault (r : FaultReason) : PortMove s (s.raise r)
  /-- A value is handed over. -/
  | reply (v : PortValue) : PortMove s (s.reply v)
  /-- A request is accepted by an idle block. -/
  | request (i : Instr) (idle : s.link.lstate = .idle) (free : s.seq.sbusy = false) :
      PortMove s (accepted i s)
  /-- A reserved word finishes with `BAD_REQUEST`. -/
  | reserved (v : Word) (idle : s.link.lstate = .idle) (free : s.seq.sbusy = false) :
      PortMove s (s.badRequest v)
  /-- `BUDGET` is written on an idle block. -/
  | budget (v : Word) (idle : s.link.lstate = .idle) (free : s.seq.sbusy = false) :
      PortMove s (s.setBudget v)
  /-- An element of `TXBUF` is written on an idle block. -/
  | txbuf (i : Nat) (b : Byte) (idle : s.link.lstate = .idle) (free : s.seq.sbusy = false)
      (inside : i < Arr.txbuf.size) : PortMove s (s.writeTxbuf i b)

theorem clientLocked_eq_false {s : State} :
    s.clientLocked = false ↔ s.link.lstate = .idle ∧ s.seq.sbusy = false := by
  simp [State.clientLocked, State.busy]

theorem clientLocked_eq_true {s : State} :
    s.clientLocked = true ↔ s.link.lstate ≠ .idle ∨ s.seq.sbusy = true := by
  simp [State.clientLocked, State.busy]

/-- Every access of a client is one of these. -/
theorem access_move {a : Access} {s t : State} (h : access a s = .next t) : PortMove s t := by
  unfold access at h
  split at h
  · cases h
    unfold regRead
    split
    · exact .reply _
    · exact .fault _
  · unfold regWrite at h
    split at h
    · split at h
      · cases h
        exact .fault _
      · rename_i hl
        obtain ⟨hi, hb⟩ := clientLocked_eq_false.1 (by simpa using hl)
        unfold Sys2Proof.Machine.request at h
        split at h
        · rw [exec_idle hi] at h
          cases h
          exact .request _ hi hb
        · cases h
          exact .reserved _ hi hb
    · split at h
      · cases h
        exact .fault _
      · rename_i hl
        obtain ⟨hi, hb⟩ := clientLocked_eq_false.1 (by simpa using hl)
        cases h
        exact .budget _ hi hb
    · cases h
      exact .fault _
  · cases h
    unfold arrRead
    split
    · split
      · exact .reply _
      · exact .fault _
    · exact .fault _
  · cases h
    unfold arrWrite
    split
    · rename_i ha
      split
      · exact .fault _
      · rename_i hl
        obtain ⟨hi, hb⟩ := clientLocked_eq_false.1 (by simpa using hl)
        exact .txbuf _ _ hi hb (ha.1 ▸ ha.2)
    · exact .fault _

/-- Every access of a client answers a next state. -/
theorem access_next (a : Access) (s : State) : ∃ t, access a s = .next t := by
  cases a with
  | regRead num => exact ⟨_, rfl⟩
  | regWrite num v =>
    show ∃ t, regWrite num v s = .next t
    unfold regWrite
    split
    · split
      · exact ⟨_, rfl⟩
      · unfold request
        split
        · exact exec_next ..
        · exact ⟨_, rfl⟩
    · split <;> exact ⟨_, rfl⟩
    · exact ⟨_, rfl⟩
  | arrRead a i => exact ⟨_, rfl⟩
  | arrWrite a i b => exact ⟨_, rfl⟩

/-! ### A step of the machine -/

/-- What a step of the machine can do: it takes one turn, or with no turn the block moves. -/
inductive StepMove (s : State) : State → Prop where
  /-- The engine moves; `ts` are the turns left. -/
  | engine (ts : List Turn) (t : State) (busy : s.link.lstate ≠ .idle)
      (h : engineStep { s with turns := ts } = .next t) : StepMove s t
  /-- The Sequencer moves. -/
  | sequencer (ts : List Turn) (t : State) (idle : s.link.lstate = .idle) (run : s.seq.sbusy = true)
      (h : seqStep { s with turns := ts } = .next t) : StepMove s t
  /-- Nothing is enabled. -/
  | nothing (ts : List Turn) : StepMove s { s with turns := ts }
  /-- The Device sends a byte. -/
  | device (b : Byte) (ts : List Turn) : StepMove s (({ s with turns := ts } : State).deviceByte b)
  /-- The page source makes an item available. -/
  | source (it : PageItem) (ts : List Turn) :
      StepMove s { s with turns := ts, source := s.source ++ [it] }
  /-- The client accesses the port. -/
  | client (a : Access) (ts : List Turn) (t : State)
      (h : access a { s with turns := ts } = .next t) : StepMove s t
  /-- The reset event. -/
  | reset (ts : List Turn) (h : s.turns = .reset :: ts) :
      StepMove s (({ s with turns := ts } : State).resetEvent)

theorem advance_move {s t : State} {ts : List Turn} (h : advance { s with turns := ts } = .next t) :
    StepMove s t := by
  unfold advance at h
  split at h
  · rename_i hb
    exact .engine ts t hb h
  · rename_i hb
    split at h
    · rename_i hr
      exact .sequencer ts t (by simpa using hb) hr h
    · cases h
      exact .nothing ts

/-- Every step is one of these. -/
theorem step_move {s t : State} (h : step s = .next t) : StepMove s t := by
  unfold step move at h
  split at h
  · split at h
    · exact advance_move (ts := s.turns) h
    · rename_i tn rest hts
      unfold takeTurn at h
      split at h
      · exact advance_move h
      · cases h
        exact .device _ rest
      · cases h
        exact .source _ rest
      · exact .client _ rest t h
      · split at h
        · rename_i hb
          refine .engine (.waitIdle :: rest) t ?_ h
          simpa [State.busy] using hb
        · cases h
          exact .nothing rest
      · cases h
        exact .reset rest hts
  · cases h

end Sys2Proof.Machine
end

