-- ==== Sys2Proof/Laws/Invariant.lean ====
section
/-!
SUPPORT. The parts of the invariant, each as a lemma over what it depends on: which fields it reads, and
what a session that stays in its step, starts another or ends has to show.
-/

namespace Sys2Proof.Machine

/-! ### What each part depends on -/

theorem ArraysInv.congr {s t : State} (h : ArraysInv s) (h1 : t.seq.ct = s.seq.ct)
    (h2 : t.seq.ident = s.seq.ident) (h3 : t.link.txbuf = s.link.txbuf)
    (h4 : t.link.rxbuf = s.link.rxbuf) : ArraysInv t := by
  obtain ⟨a, b, c, d, e, f, g, i⟩ := h
  constructor <;> simp only [h1, h2, h3, h4] <;> assumption

theorem SessionInv.congr {s t : State} (h : SessionInv s) (h1 : t.seq = s.seq) (h2 : t.cfg = s.cfg)
    (h3 : t.link.opr = s.link.opr) : SessionInv t := by
  have hr : RunningInv s → RunningInv t := by
    rintro ⟨a, b, c, d, e, f, g, i, j, k⟩
    have i' : awaitedOk t := by
      unfold awaitedOk at i ⊢
      rw [h1, h2, h3]
      exact i
    constructor <;> (try simp only [h1, h2]) <;> assumption
  obtain ⟨a, b, c, d, e, f, g⟩ := h
  refine ⟨fun x => hr (a (h1 ▸ x)), ?_, ?_, ?_, ?_, ?_, ?_⟩ <;> simp only [h1] <;> assumption

theorem LinkInv.congr {s t : State} (h : LinkInv s) (h1 : t.link = s.link) (h2 : t.cfg = s.cfg) :
    LinkInv t := by
  have hs : sendingOk t = sendingOk s := by
    unfold sendingOk State.txPayload
    rw [h1, h2]
  have hr : readingOk t = readingOk s := by
    unfold readingOk
    rw [h1]
  have hl : t.lastWasRead = s.lastWasRead := by
    unfold State.lastWasRead
    rw [h1]
  obtain ⟨a, b, c, d, e, f, g⟩ := h
  constructor <;> simp only [h1, hs, hr, hl] <;> assumption

theorem State.Inv.congr {s t : State} (h : s.Inv) (h1 : t.seq = s.seq) (h2 : t.cfg = s.cfg)
    (h3 : t.link = s.link) (h4 : t.faults.Nodup) : t.Inv :=
  ⟨h.arrays.congr (by rw [h1]) (by rw [h1]) (by rw [h3]) (by rw [h3]), h.engine.congr h3 h2,
    h.session.congr h1 h2 (by rw [h3]), h4⟩

theorem sendingOk.congr {s t : State} (h : sendingOk s) (h1 : t.cfg = s.cfg)
    (h2 : t.link.opr = s.link.opr) (h3 : t.link.txq = s.link.txq)
    (h4 : t.link.attempts = s.link.attempts) (h5 : t.link.txbuf = s.link.txbuf)
    (h6 : s.link.lstate = .ackwait → t.link.lstate = .ackwait) : sendingOk t := by
  unfold sendingOk State.txPayload at *
  rw [h1, h2, h3, h4, h5]
  split at h <;> first | exact h | exact ⟨h6 h.1, h.2⟩

/-- The engine back in idle, the bytes read kept. -/
theorem LinkInv.finished {s t : State} (h : LinkInv s) (h1 : t.link.lstate = .idle)
    (h2 : t.link.ackout = none) (h3 : t.link.rxcnt = s.link.rxcnt)
    (h4 : t.link.rxbuf = s.link.rxbuf)
    (hd : t.link.result = .ok → t.lastWasRead = true → readingOk t ∧ t.link.rxcnt = t.link.rxn) :
    LinkInv t := by
  obtain ⟨-, -, -, -, e, f, -⟩ := h
  exact ⟨h2, by simp [h1], by simp [h1], by simp [h1], h3 ▸ e, by rwa [h3, h4], fun _ => hd⟩

/-! ### What a session has to show -/

/-- With no session running the Sequencer's part reads its own state only. -/
theorem SessionInv.free {s t : State} (h : SessionInv s) (hb : s.seq.sbusy = false)
    (h1 : t.seq = s.seq) : SessionInv t := by
  obtain ⟨-, b, c, d, e, f, g⟩ := h
  refine ⟨fun x => ?_, ?_, ?_, ?_, ?_, ?_, ?_⟩
  · rw [h1, hb] at x
    cases x
  all_goals simp only [h1]; assumption

/-- A running session that stays in its step. -/
theorem SessionInv.stays {s u : State} (h : SessionInv s) (hr : s.seq.sbusy = true)
    (h0 : u.cfg = s.cfg)
    (h1 : u.seq = { s.seq with
      sub := u.seq.sub, tries := u.seq.tries, probes := u.seq.probes, latch := u.seq.latch
      startAddr := u.seq.startAddr, startValid := u.seq.startValid, ct := u.seq.ct
      ctValid := u.seq.ctValid, ident := u.seq.ident, idLen := u.seq.idLen })
    (h2 : u.seq.sub ≤ s.seq.step.lastSub) (h3 : awaitedOk u)
    (h4 : s.seq.step = .program → u.seq.sub ≠ 0 → u.seq.latch.isSome)
    (h5 : s.seq.step = .go → u.seq.sub ≠ 0 → u.seq.startValid = true)
    (h6 : ∀ p ∈ u.seq.latch, 1 ≤ p.data.length ∧ p.data.length ≤ Config.pageMax)
    (h7 : ∀ i, u.seq.ctValid.getLsbD i = true → (u.seq.ct.read i).isSome) : SessionInv u := by
  have R := h.running hr
  have hst : u.seq.step = s.seq.step := by rw [h1]
  have hx : u.seq.sstate = s.seq.sstate := by rw [h1]
  have hd : u.seq.sdone = s.seq.sdone := by rw [h1]
  refine ⟨fun _ => ⟨h0 ▸ R.present, hst ▸ R.step_run, hst ▸ h2, ?_, hd ▸ R.not_done, ?_, ?_, h3,
    hst ▸ h4, hst ▸ h5⟩, ?_, ?_, ?_, ?_, h6, h7⟩
  · rw [hx, hst]
    exact R.sstate_during
  · rw [h1]
    exact R.no_failure
  · rw [h1]
    exact R.no_go
  · rw [h1]
    intro e
    rw [hr] at e
    cases e
  · rw [hst, hd, R.not_done]
    simp [R.step_run.2]
  · rw [hst]
    exact fun e => absurd e R.step_run.2
  · rw [hst]
    exact fun e => absurd e R.step_run.1

/-- A running session that starts another step. -/
theorem SessionInv.starts {s u : State} (h : SessionInv s) (hr : s.seq.sbusy = true)
    (h0 : u.cfg = s.cfg) (h1 : u.seq.step ≠ .none ∧ u.seq.step ≠ .done)
    (h2 : u.seq.sstate = u.seq.step.during) (h3 : u.seq.sbusy = true)
    (h4 : u.seq.sdone = s.seq.sdone)
    (h5 : u.seq.failStep = s.seq.failStep ∧ u.seq.failResult = s.seq.failResult ∧
      u.seq.failAddr = s.seq.failAddr)
    (h6 : u.seq.goIssued = s.seq.goIssued) (h7 : u.seq.sub = 0)
    (h8 : ∀ p ∈ u.seq.latch, 1 ≤ p.data.length ∧ p.data.length ≤ Config.pageMax)
    (h9 : ∀ i, u.seq.ctValid.getLsbD i = true → (u.seq.ct.read i).isSome) : SessionInv u := by
  have R := h.running hr
  refine ⟨fun _ => ⟨h0 ▸ R.present, h1, ?_, h2, h4 ▸ R.not_done, ?_, h6 ▸ R.no_go, ?_, ?_, ?_⟩,
    ?_, ?_, ?_, ?_, h8, h9⟩
  · rw [h7]
    exact Nat.zero_le _
  · rw [h5.1, h5.2.1, h5.2.2]
    exact R.no_failure
  · unfold awaitedOk
    rw [h7]
    cases u.seq.step <;> trivial
  · exact fun _ e => absurd h7 e
  · exact fun _ e => absurd h7 e
  · rw [h3]
    rintro ⟨⟩
  · rw [h4, R.not_done]
    simp [h1.2]
  · exact fun e => absurd e h1.2
  · exact fun e => absurd e h1.1

/-- A session that ends. -/
theorem SessionInv.ends {u : State} (h1 : u.seq.step = .done) (h2 : u.seq.sbusy = false)
    (h3 : u.seq.sdone = true) (h4 : outcomeOk u.seq)
    (h5 : ∀ p ∈ u.seq.latch, 1 ≤ p.data.length ∧ p.data.length ≤ Config.pageMax)
    (h6 : ∀ i, u.seq.ctValid.getLsbD i = true → (u.seq.ct.read i).isSome) : SessionInv u := by
  refine ⟨?_, fun _ => .inr h1, by simp [h1, h3], fun _ => h4, by simp [h1], h5, h6⟩
  rw [h2]
  rintro ⟨⟩

end Sys2Proof.Machine
end

