-- ==== Sys2Proof/Laws/PerInstr.lean ====
section
/-!
SUPPORT. The statements made of every operation, one lemma per constructor: the word an operation is
asked for with carries its own code in bits 3:0 and 0 in every reserved bit (30_encoding.md R110, R111).
-/

namespace Sys2Proof.Laws.OpcodeField

/-- `OP` is the operation's code of R111 and the bits 7:4 and 31:25 are 0. -/
def Statement (i : Instr) : Prop :=
  reqOp (encode i) = i.opcode ∧ reqLow (encode i) = 0 ∧ reqHigh (encode i) = 0

theorem probe : Statement .probe := by simp [Statement, encode, Instr.opcode]

theorem sendCmd (c : Byte) : Statement (.sendCmd c) := by simp [Statement, encode, Instr.opcode]

theorem sendFrame (n : BitVec 9) : Statement (.sendFrame n) := by
  simp [Statement, encode, Instr.opcode]

theorem waitAck : Statement .waitAck := by simp [Statement, encode, Instr.opcode]

theorem readByte : Statement .readByte := by simp [Statement, encode, Instr.opcode]

theorem readBytes (n : BitVec 9) : Statement (.readBytes n) := by
  simp [Statement, encode, Instr.opcode]

theorem flushRx : Statement .flushRx := by simp [Statement, encode, Instr.opcode]

theorem setEvenParity : Statement .setEvenParity := by simp [Statement, encode, Instr.opcode]

theorem seqStart (resume : Bool) : Statement (.seqStart resume) := by
  simp [Statement, encode, Instr.opcode]

end Sys2Proof.Laws.OpcodeField
end

