-- ==== Sys2Proof/Laws/Run.lean ====
section
/-!
SUPPORT. Runs of several steps: how they compose, and the two loops of the engine (sending what is
left of `TXQ`, waiting on an empty channel) as one run each.
-/

namespace Sys2Proof.Machine

/-- `n` steps lead from `s` to `t`. -/
def Runs (n : Nat) (s t : State) : Prop := Host.Core.run core n s = .next t

theorem Runs.refl (s : State) : Runs 0 s s := rfl

theorem Runs.cons {n : Nat} {s t u : State} (h : step s = .next t) (hr : Runs n t u) :
    Runs (n + 1) s u := by
  have e : core.step s = .next t := h
  show Host.Core.run core (n + 1) s = .next u
  simp only [Host.Core.run]
  rw [e]
  exact hr

theorem Runs.one {s t : State} (h : step s = .next t) : Runs 1 s t := Runs.cons h (Runs.refl t)

theorem Runs.trans {m n : Nat} {s t u : State} (h : Runs m s t) (hr : Runs n t u) :
    Runs (m + n) s u := by
  induction m generalizing s with
  | zero =>
    obtain rfl : s = t := Host.Outcome.next.inj h
    rw [Nat.zero_add]
    exact hr
  | succ m ih =>
    have h' : Host.Core.run core (m + 1) s = .next t := h
    simp only [Host.Core.run] at h'
    cases hs : step s with
    | next v =>
      have e : core.step s = .next v := hs
      rw [e] at h'
      rw [show m + 1 + n = m + n + 1 by omega]
      exact Runs.cons hs (ih h')
    | fault r =>
      have e : core.step s = .fault r := hs
      rw [e] at h'
      cases h'
    | refused r =>
      have e : core.step s = .refused r := hs
      rw [e] at h'
      cases h'

/-- With no turn left a busy engine moves. -/
theorem step_engine {s : State} (hl : legalParameters s.cfg) (ht : s.turns = [])
    (hb : s.link.lstate ≠ .idle) : step s = engineStep s := by
  unfold step move
  rw [if_pos hl, ht]
  show advance s = _
  unfold advance
  rw [if_pos hb]

/-- A client's request to an idle block with no session is the decoded operation. -/
theorem step_request {s : State} {v : Word} {i : Instr} (hl : legalParameters s.cfg)
    (hi : s.link.lstate = .idle) (hb : s.seq.sbusy = false)
    (ht : s.turns = [.client (.regWrite 0 v)]) (hd : decodeReq s.cfg.seqPresent v = .ok i) :
    step s = .next (accepted i { s with turns := [] }) := by
  have hc : ({ s with turns := [] } : State).clientLocked = false :=
    clientLocked_eq_false.2 ⟨hi, hb⟩
  unfold step move
  rw [if_pos hl, ht]
  show regWrite 0 v { s with turns := [] } = _
  unfold regWrite regOfNum
  simp only [hc]
  show request v { s with turns := [] } = _
  have hd' : decodeReq ({ s with turns := [] } : State).cfg.seqPresent v = .ok i := hd
  unfold request
  rw [hd']
  exact exec_idle (s := { s with turns := [] }) hi i

/-- The polls left of a wait on an empty channel, one tick each. -/
theorem runs_wait {n : Nat} {s : State} (hl : legalParameters s.cfg) (ht : s.turns = [])
    (hw : s.link.lstate = .ackwait) (hf : s.chan.rxfifo = []) (hn : s.link.polls.toNat = n) :
    Runs n s { s with
      chan := { s.chan with ticks := s.chan.ticks + n }
      link := { s.link with polls := 0 } } := by
  induction n generalizing s with
  | zero =>
    have h0 : s.link.polls = 0 := BitVec.eq_of_toNat_eq hn
    have : ({ s with
        chan := { s.chan with ticks := s.chan.ticks + 0 }
        link := { s.link with polls := 0 } } : State) = s := by
      rw [← h0]
      rfl
    rw [this]
    exact Runs.refl s
  | succ n ih =>
    have hp : s.link.polls ≠ 0 := by
      intro e
      rw [e] at hn
      exact absurd hn (by simp)
    have e : step s = .next s.tick.spendPoll := by
      rw [step_engine hl ht (by rw [hw]; rintro ⟨⟩)]
      unfold engineStep ackStep State.chanRead
      rw [hw, hf]
      simp only [if_neg hp]
    have hm : (s.link.polls - 1).toNat = n := by
      have h1 : (1 : Word).toNat = 1 := rfl
      have := s.link.polls.isLt
      rw [BitVec.toNat_sub, h1]
      omega
    have := Runs.cons e (ih (s := s.tick.spendPoll) hl ht hw hf hm)
    rw [show s.chan.ticks + (n + 1) = s.chan.ticks + 1 + n by omega]
    exact this

/-- The `k` bytes of `TXQ` that are left, one step each; then the wait starts with `ACKB`. -/
theorem runs_tx {k : Nat} {s : State} (hl : legalParameters s.cfg) (ht : s.turns = [])
    (hw : s.link.lstate = .tx) (hk : s.link.txptr + (k + 1) = s.link.txq.length) :
    Runs (k + 1) s { s with
      chan := { s.chan with txlog := s.chan.txlog ++ s.link.txq.drop s.link.txptr }
      link := { s.link with
        txptr := s.link.txq.length, polls := s.link.ackb, lstate := .ackwait } } := by
  induction k generalizing s with
  | zero =>
    have hlt : s.link.txptr < s.link.txq.length := by omega
    refine Runs.one ?_
    rw [step_engine hl ht (by rw [hw]; rintro ⟨⟩), List.drop_eq_getElem_cons hlt,
      List.drop_eq_nil_of_le (by omega)]
    unfold engineStep txStep
    rw [hw]
    simp only [List.getElem?_eq_getElem hlt]
    unfold State.afterSent
    rw [if_pos (by show s.link.txptr + 1 = s.link.txq.length; omega), ← hk]
    rfl
  | succ k ih =>
    have hlt : s.link.txptr < s.link.txq.length := by omega
    have e : step s = .next { s with
        chan := { s.chan with txlog := s.chan.txlog ++ [s.link.txq[s.link.txptr]] }
        link := { s.link with txptr := s.link.txptr + 1 } } := by
      rw [step_engine hl ht (by rw [hw]; rintro ⟨⟩)]
      unfold engineStep txStep
      rw [hw]
      simp only [List.getElem?_eq_getElem hlt]
      unfold State.afterSent
      rw [if_neg (by show ¬ s.link.txptr + 1 = s.link.txq.length; omega)]
      rfl
    have hr := ih (s := { s with
        chan := { s.chan with txlog := s.chan.txlog ++ [s.link.txq[s.link.txptr]] }
        link := { s.link with txptr := s.link.txptr + 1 } }) hl ht hw
      (by show s.link.txptr + 1 + (k + 1) = s.link.txq.length; omega)
    have := Runs.cons e hr
    rw [List.drop_eq_getElem_cons hlt]
    simpa using this

/-- A wait whose polls are used up times out (R166, R167). -/
theorem step_timeout {s : State} (hl : legalParameters s.cfg) (ht : s.turns = [])
    (hw : s.link.lstate = .ackwait) (hp : s.link.polls = 0) :
    step s = .next (if 1 < s.link.attempts then s.reissue else s.finish .timeout) := by
  rw [step_engine hl ht (by rw [hw]; rintro ⟨⟩)]
  unfold engineStep ackStep
  rw [hw]
  simp only [if_pos hp, State.endWait_eq]
  simp [AckOutcome.result]

/-- A wait with polls left takes the first byte there is (R165, R167). -/
theorem step_byte {s : State} {b : Byte} {rest : List Byte} (hl : legalParameters s.cfg)
    (ht : s.turns = []) (hw : s.link.lstate = .ackwait) (hp : s.link.polls ≠ 0)
    (hf : s.chan.rxfifo = b :: rest) :
    step s = .next
      ((({ s with chan := { s.chan with rxfifo := rest } } : State).setLastRx b).endWait
        (classify b)) := by
  rw [step_engine hl ht (by rw [hw]; rintro ⟨⟩)]
  unfold engineStep ackStep State.chanRead
  rw [hw, hf]
  simp only [if_neg hp]

end Sys2Proof.Machine
end

