-- ==== Sys2Proof/Laws/Session.lean ====
section
/-!
SUPPORT. What no step of the Sequencer does: leave a session without a step, or refuse.
-/

namespace Sys2Proof.Machine

/-- A call keeps the session's step. -/
theorem callAt_step {k : Nat} {call : LinkCall} {s t : State} (hi : s.link.lstate = .idle)
    (h : callAt k call s = .next t) : t.seq.step = s.seq.step := by
  have hs : ∀ r, call.request ≠ .seqStart r := by cases call <;> rintro r ⟨⟩
  unfold callAt LinkCall.issue at h
  rw [exec_idle (by rw [LinkCall.prepare_eq]; exact hi)] at h
  cases h
  rw [(accepted_only call.request _).2.2.1 hs, LinkCall.prepare_eq]
  rfl

/-! A session that has a step keeps having one. -/

theorem State.stepFail_started {s : State} (st : FailStep) (a : Word) (h : s.seq.step ≠ .none) :
    (s.stepFail st a).seq.step ≠ .none := by
  obtain ⟨w, n, e | e⟩ := State.stepFail_outcome st a s <;> rw [e]
  · exact h
  · simp

theorem State.restart_started (s : State) : s.restart.seq.step ≠ .none := by
  obtain ⟨w, n, e | e⟩ := State.restart_outcome s <;> rw [e] <;> simp

theorem State.raise_started {s : State} (r : FaultReason) (h : s.seq.step ≠ .none) :
    (s.raise r).seq.step ≠ .none := by
  rw [State.raise_eq]
  exact h

theorem runTransaction_started {tr : List LinkCall} {s a b t : State} (hi : s.link.lstate = .idle)
    (hn : s.seq.step ≠ .none) (ha : a.seq.step ≠ .none) (hb : b.seq.step ≠ .none)
    (h : runTransaction tr s a b = .next t) : t.seq.step ≠ .none := by
  rcases runTransaction_next h with ⟨c, -, -, h⟩ | ⟨-, -, -, rfl⟩ | ⟨-, -, rfl⟩
  · rw [callAt_step hi h]
    exact hn
  · exact ha
  · exact hb

/-- After a step of the Sequencer the session has a step. -/
theorem seqStep_started {s t : State} (hi : s.link.lstate = .idle) (h : seqStep s = .next t) :
    t.seq.step ≠ .none := by
  have hn : s.seq.step ≠ .none := by
    intro e
    unfold seqStep at h
    rw [e] at h
    cases h
  have call : ∀ {k c} {u : State}, u.link.lstate = .idle → u.seq.step = s.seq.step →
      callAt k c u = .next t → t.seq.step ≠ .none := by
    intro k c u h1 h2 h3
    rw [callAt_step h1 h3, h2]
    exact hn
  unfold seqStep at h
  split at h
  · unfold probeStep at h
    split at h
    · exact call hi rfl h
    · exact call hi rfl h
    · split at h <;> cases h
      · simp [State.startStep]
      · rcases State.probeFailed_outcome s with e | e <;> rw [e]
        · exact hn
        · simp
    · cases h
  · unfold identifyStep at h
    split at h
    · exact call (u := s.clearIdentity) hi rfl h
    split at h
    · cases h
    split at h
    · cases h
      exact State.stepFail_started _ _ hn
    split at h
    · exact call hi rfl h
    · rcases withReply_next h with ⟨bs, -, h⟩ | rfl
      · dsimp only at h
        split at h
        · exact call (u := s.storeCt 0 bs) hi rfl h
        · cases h
          exact State.raise_started _ (by exact hn)
      · exact State.raise_started _ hn
    · rcases withReply_next h with ⟨bs, -, h⟩ | rfl
      · rcases withCount_next h with ⟨n, -, h⟩ | rfl
        · split at h
          · exact call (u := s.storeCt 1 bs) hi rfl h
          · exact call (u := (s.storeCt 1 bs).setCtValid n.toNat) hi rfl h
        · exact State.raise_started _ hn
      · exact State.raise_started _ hn
    · rcases withCount_next h with ⟨n, -, h⟩ | rfl
      · rcases withReply_next h with ⟨bs, -, h⟩ | rfl
        · exact call (u := (s.storeCt 2 bs).setCtValid n.toNat) hi rfl h
        · exact State.raise_started _ hn
      · exact State.raise_started _ hn
    · rcases withCt_next h with ⟨op, -, h⟩ | rfl
      · exact call hi rfl h
      · exact State.raise_started _ hn
    · exact call hi rfl h
    · rcases withReply_next h with ⟨bs, -, h⟩ | rfl
      · dsimp only at h
        split at h
        · exact call (u := s.setIdLen (bs.headD 0)) hi rfl h
        · cases h
          exact State.raise_started _ (by exact hn)
      · exact State.raise_started _ hn
    · rcases withReply_next h with ⟨bs, -, h⟩ | rfl
      · exact call (u := s.storeId bs) hi rfl h
      · exact State.raise_started _ hn
    · cases h
      simp [State.startStep]
  · rcases withCt_next h with ⟨op, -, h⟩ | rfl
    · rcases progress_cases (ispReadMem op Config.flashSizeAddr 2) s.seq.sub s.resultOk with
        ⟨-, e⟩ | ⟨-, -, -, e⟩ | ⟨c, hc, -, e⟩ | ⟨-, -, e⟩ <;> simp only [e] at h
      · cases h
      · cases h
        unfold State.flashSizeFailed
        split
        · simp [State.startStep]
        · exact State.stepFail_started _ _ hn
      · exact call hi rfl h
      · rcases withReply_next h with ⟨bs, -, h⟩ | rfl
        · cases h
          simp [State.flashSizeKnown, State.startStep]
        · exact State.raise_started _ hn
    · exact State.raise_started _ hn
  · rcases withCt_next h with ⟨op, -, h⟩ | rfl
    · exact runTransaction_started hi hn (State.stepFail_started _ _ hn) s.restart_started h
    · exact State.raise_started _ hn
  · rcases withCt_next h with ⟨op, -, h⟩ | rfl
    · exact runTransaction_started hi hn (State.stepFail_started _ _ hn) (by simp [State.startStep]) h
    · exact State.raise_started _ hn
  · unfold programStep at h
    split at h
    · split at h
      · unfold pullStep at h
        split at h
        · cases h
          exact hn
        · split at h <;> cases h
          · exact hn
          · exact State.raise_started _ hn
        · cases h
          exact hn
        · cases h
          simp [State.startStep]
        · cases h
          simp [State.failSession]
      · cases h
    · rcases withCt_next h with ⟨op, -, h⟩ | rfl
      · exact runTransaction_started hi hn (State.stepFail_started _ _ hn) (b := s.pageWritten) hn h
      · exact State.raise_started _ hn
  · unfold goStep at h
    split at h
    · cases h
      simp [State.endSession]
    · rcases withCt_next h with ⟨op, -, h⟩ | rfl
      · exact runTransaction_started hi hn (State.stepFail_started _ _ hn)
          (by simp [State.jumped, State.endSession]) h
      · exact State.raise_started _ hn
  · cases h
  · cases h

/-! No step refuses. -/

theorem callAt_not_refused (k : Nat) (c : LinkCall) (s : State) (r : Refusal) :
    callAt k c s ≠ .refused r := by
  unfold callAt LinkCall.issue
  rw [exec_eq]
  unfold whenIdle
  split <;> rintro ⟨⟩

theorem withCt_not_refused {i : Nat} {s : State} {k : Byte → Host.Outcome State Fault Refusal} {r : Refusal}
    (h : ∀ op, k op ≠ .refused r) : withCt i s k ≠ .refused r := by
  unfold withCt
  split
  · exact h _
  · rintro ⟨⟩

theorem withCount_not_refused {s : State} {k : Nat → Host.Outcome State Fault Refusal} {r : Refusal}
    (h : ∀ n, k n ≠ .refused r) : withCount s k ≠ .refused r := by
  unfold withCount
  split
  · exact h _
  · rintro ⟨⟩

theorem withReply_not_refused {n : Nat} {s : State} {r : Refusal}
    {k : List Byte → Host.Outcome State Fault Refusal} (h : ∀ bs, k bs ≠ .refused r) :
    withReply n s k ≠ .refused r := by
  unfold withReply
  split
  · exact h _
  · rintro ⟨⟩

theorem runTransaction_not_refused {t : List LinkCall} {s a b : State} {r : Refusal} :
    runTransaction t s a b ≠ .refused r := by
  unfold runTransaction
  split <;> first
    | exact callAt_not_refused _ _ _ _
    | rintro ⟨⟩

theorem seqStep_not_refused (s : State) (r : Refusal) : seqStep s ≠ .refused r := by
  unfold seqStep
  split
  · unfold probeStep
    split
    · exact callAt_not_refused _ _ _ _
    · exact callAt_not_refused _ _ _ _
    · split <;> rintro ⟨⟩
    · rintro ⟨⟩
  · unfold identifyStep
    split
    · exact callAt_not_refused _ _ _ _
    split
    · rintro ⟨⟩
    split
    · rintro ⟨⟩
    split
    · exact callAt_not_refused _ _ _ _
    · refine withReply_not_refused fun bs => ?_
      dsimp only
      split
      · exact callAt_not_refused _ _ _ _
      · rintro ⟨⟩
    · refine withReply_not_refused fun bs => withCount_not_refused fun n => ?_
      split <;> exact callAt_not_refused _ _ _ _
    · exact withCount_not_refused fun n => withReply_not_refused fun bs => callAt_not_refused _ _ _ _
    · exact withCt_not_refused fun n => callAt_not_refused _ _ _ _
    · exact callAt_not_refused _ _ _ _
    · refine withReply_not_refused fun bs => ?_
      dsimp only
      split
      · exact callAt_not_refused _ _ _ _
      · rintro ⟨⟩
    · exact withReply_not_refused fun n => callAt_not_refused _ _ _ _
    · rintro ⟨⟩
  · refine withCt_not_refused fun n => ?_
    split
    · exact callAt_not_refused _ _ _ _
    · rintro ⟨⟩
    · refine withReply_not_refused fun n => ?_
      rintro ⟨⟩
    · rintro ⟨⟩
  · exact withCt_not_refused fun n => runTransaction_not_refused
  · exact withCt_not_refused fun n => runTransaction_not_refused
  · unfold programStep
    split
    · split
      · unfold pullStep
        split <;> (try split) <;> rintro ⟨⟩
      · rintro ⟨⟩
    · exact withCt_not_refused fun n => runTransaction_not_refused
  · unfold goStep
    split
    · rintro ⟨⟩
    · exact withCt_not_refused fun n => runTransaction_not_refused
  · rintro ⟨⟩
  · rintro ⟨⟩

theorem engineStep_not_refused (s : State) (r : Refusal) : engineStep s ≠ .refused r := by
  unfold engineStep txStep rxStep
  repeat' split
  all_goals rintro ⟨⟩

end Sys2Proof.Machine
end

