-- ==== Sys2Proof/Tests/Slice0.lean ====
section
/-!
SUPPORT. Tests of the model on single steps, expected results from the spec's encodings and vectors
(30_encoding.md, 95_test_vectors.md), and one witness for the hypotheses of each statement.
-/

namespace Sys2Proof.Tests

open Sys2Proof.Machine

/-! ### States -/

/-- After reset, with these turns of the environment. -/
def after (ts : List Turn) : State := { State.reset with turns := ts }

/-- A client that writes the request word `v` to a block just reset. -/
def asking (v : Word) : State := after [.client (.regWrite 0 v)]

/-- A state whose engine is as given, the bytes `fifo` waiting. -/
def engineAt (l : Link) (fifo : List Byte) : State :=
  { State.reset with link := l, chan := { State.reset.chan with rxfifo := fifo } }

/-- The bytes `p` written to `TXBUF`. -/
def loaded (p : List Byte) : State :=
  { State.reset with link := { Link.reset with txbuf := Memory.writeList [] 0 p } }

/-- A transmission of the pair `11 EE`, `k` bytes of it sent, `n` attempts left. -/
def sendingAt (k n : Nat) : Link :=
  { Link.reset with
    lstate := .tx, opr := some (.sendCmd 0x11), txq := [0x11, 0xEE], txptr := k, ackb := 5000
    attempts := n }

/-- A wait with `n` attempts and `k` polls left. -/
def waitingAt (n : Nat) (k : Word) : Link :=
  { Link.reset with
    lstate := .ackwait, opr := some (.sendCmd 0x11), txq := [0x11, 0xEE], txptr := 2, ackb := 5000
    attempts := n, polls := k }

/-- A read of `n` bytes, `k` of them there, the per-byte budget `r`. -/
def readingAt (n : BitVec 9) (k r : Nat) : Link :=
  { Link.reset with
    lstate := .rx, opr := some (.readBytes n), rxn := n.toNat, rxcnt := k, rxpolls := r }

/-- The Command Table of vector program P1: the count 11, the version 0x22 and the eleven opcodes. -/
def tableP1 : Memory :=
  Memory.writeList [] 0
    [0x0B, 0x22, 0x00, 0x01, 0x02, 0x11, 0x21, 0x31, 0x44, 0x63, 0x73, 0x82, 0x92]

/-- A session in step `st` after `k` calls, the table of P1 read. -/
def sessionIn (st : SeqStep) (k : Nat) : Session :=
  { Session.reset with
    sbusy := true, step := st, sub := k, sstate := st.during, ct := tableP1, ctValid := 0x1FFF
    idLen := 0x01 }

/-- The machine in that session, the last operation having finished with `r`. -/
def sessionAt (st : SeqStep) (k : Nat) (r : ResultCode) : State :=
  { State.reset with
    link := { Link.reset with result := r, rv := true }
    seq := sessionIn st k }

/-- The machine in that session after a read that brought `bs`. -/
def replyAt (st : SeqStep) (k : Nat) (bs : List Byte) : State :=
  { sessionAt st k .ok with
    link := { Link.reset with
      rv := true, opr := some (.readBytes (BitVec.ofNat 9 bs.length)), rxn := bs.length
      rxcnt := bs.length, rxbuf := Memory.writeList [] 0 bs } }

/-- The machine in that session, `f` changing the Sequencer. -/
def sessionWith (st : SeqStep) (k : Nat) (r : ResultCode) (f : Session → Session) : State :=
  { sessionAt st k r with seq := f (sessionIn st k) }

/-- The machine in that session, with other parameters. -/
def configured (s : State) (f : Config → Config) : State := { s with cfg := f s.cfg }

/-- What `f` reads in the state after one step. -/
def stepped {α : Type} (f : State → α) (s : State) : Option α :=
  match step s with
  | .next t => some (f t)
  | .fault _ => none
  | .refused _ => none

/-! ### Well-formed operations (R111, R114) -/

theorem test_frame_of_no_bytes_is_ill_formed : ¬ (Instr.sendFrame 0).WellFormed true := by decide
theorem test_frame_of_258_bytes_is_ill_formed : ¬ (Instr.sendFrame 258).WellFormed true := by decide
theorem test_frame_of_257_bytes_is_well_formed : (Instr.sendFrame 257).WellFormed true := by decide
theorem test_read_of_no_bytes_is_ill_formed : ¬ (Instr.readBytes 0).WellFormed true := by decide
theorem test_read_of_257_bytes_is_ill_formed : ¬ (Instr.readBytes 257).WellFormed true := by decide
theorem test_read_of_256_bytes_is_well_formed : (Instr.readBytes 256).WellFormed true := by decide
theorem test_start_without_sequencer_is_ill_formed :
    ¬ (Instr.seqStart false).WellFormed false := by decide

/-! ### Words written out bit by bit: 31:25 | LEN | BYTE | 7:4 | OP (R110, R111) -/

theorem test_word_probe :
    decodeReq true 0b0000000_000000000_00000000_0000_0001 = .ok .probe := by decide
theorem test_word_send_cmd :
    decodeReq true 0b0000000_000000000_10101100_0000_0010 = .ok (.sendCmd 0xAC) := by decide
theorem test_word_send_frame :
    decodeReq true 0b0000000_000000101_00000000_0000_0011 = .ok (.sendFrame 5) := by decide
theorem test_word_wait_ack :
    decodeReq true 0b0000000_000000000_00000000_0000_0100 = .ok .waitAck := by decide
theorem test_word_read_byte :
    decodeReq true 0b0000000_000000000_00000000_0000_0101 = .ok .readByte := by decide
theorem test_word_read_bytes :
    decodeReq true 0b0000000_000001011_00000000_0000_0110 = .ok (.readBytes 11) := by decide
theorem test_word_flush_rx :
    decodeReq true 0b0000000_000000000_00000000_0000_0111 = .ok .flushRx := by decide
theorem test_word_set_even_parity :
    decodeReq true 0b0000000_000000000_00000000_0000_1000 = .ok .setEvenParity := by decide
theorem test_word_seq_start :
    decodeReq true 0b0000000_000000000_00000000_0000_1001 = .ok (.seqStart false) := by decide

/-- The word of `SENDFRAME 513` is the table's (R145), and it is reserved (R113). -/
theorem test_line_of_513_bytes :
    (Line.sendFrame 513).word = some 0x02010003 ∧
    decodeReq true 0x02010003 = .error .reservedBits := by decide

/-- Each reserved case of R113 and R114 is rejected under its own name. -/
theorem test_reserved_words :
    decodeReq true 0x00000011 = .error .reservedBits ∧
    decodeReq true 0x02000001 = .error .reservedBits ∧
    decodeReq true 0x00000000 = .error .reservedOp ∧
    decodeReq true 0x0000000A = .error .reservedOp ∧
    decodeReq true 0x00000101 = .error .unusedByte ∧
    decodeReq true 0x00000209 = .error .unusedByte ∧
    decodeReq true 0x00010002 = .error .unusedLen ∧
    decodeReq true 0x00000003 = .error .lenOutOfRange ∧
    decodeReq true 0x01020003 = .error .lenOutOfRange ∧
    decodeReq true 0x01010006 = .error .lenOutOfRange ∧
    decodeReq false 0x00000009 = .error .noSequencer := by decide

/-- The words of the opcode table as a client may place them; `SEND_FRAME` and `READ_BYTES` of length 0
are reserved words (R111, R113). -/
theorem test_table_words :
    decodeTableWord 32 0x00000001 = some .probe ∧ decodeTableWord 32 0x00000002 = some (.sendCmd 0) ∧
    decodeTableWord 32 0x00000003 = none ∧ decodeTableWord 32 0x00010003 = some (.sendFrame 1) ∧
    decodeTableWord 32 0x00000009 = some (.seqStart false) := by decide

/-- The word placed is the request the next step takes. -/
theorem test_placed_word_runs :
    stepped (fun t => t.link.opr) (State.reset.withFetchWord 32 0x00001102) =
      some (some (.sendCmd 0x11)) := by decide

/-! ### Single steps, by the vectors of 95_test_vectors.md -/

/-- V1: the probe puts `7F` alone on the wire. -/
theorem test_probe : stepped (fun t => (t.link.txq, t.link.polls, t.link.ackb)) (asking 0x00000001) =
    some ([0x7F], 0, 1000) := by decide
/-- V7: the command pair. -/
theorem test_send_cmd : stepped (fun t => t.link.txq) (asking 0x00001102) = some [0x11, 0xEE] := by
  decide
/-- V10: a byte that is no ACK re-issues the pair while an attempt is left. -/
theorem test_send_cmd_again :
    stepped (fun t => (t.link.lstate, t.link.attempts, t.link.lastRx, t.link.rv))
      (engineAt (waitingAt 2 9) [0x55]) = some (.tx, 1, 0x55, false) := by decide
/-- V14: the frame and its checksum. -/
theorem test_send_frame :
    stepped (fun t => t.link.txq)
      { loaded [0x1F, 0xFF, 0xF7, 0xE0] with turns := [.client (.regWrite 0 0x00040003)] } =
      some [0x1F, 0xFF, 0xF7, 0xE0, 0xF7] := by decide
/-- V19: the fifth byte was never written. -/
theorem test_send_frame_unwritten :
    stepped (fun t => (t.faults, t.link.lstate))
      { loaded [0x1F, 0xFF, 0xF7, 0xE0] with turns := [.client (.regWrite 0 0x00050003)] } =
      some ([.txbufUnwritten], .idle) := by decide
/-- V24: a budget of 0 times out and the byte stays. -/
theorem test_wait_ack_without_budget :
    stepped (fun t => (statusWord t, t.chan.rxfifo)) (engineAt (waitingAt 1 0) [0x79]) =
      some (0x00000026, [0x79]) := by decide
/-- V28: the first byte decides and the second stays. -/
theorem test_wait_ack_first_byte :
    stepped (fun t => (statusWord t, t.chan.rxfifo)) (engineAt (waitingAt 1 1) [0x1F, 0x79]) =
      some (0x00001F22, [0x79]) := by decide
/-- V29. -/
theorem test_read_byte :
    stepped (fun t => (statusWord t, t.link.rxbuf.read 0)) (engineAt (readingAt 1 0 5000) [0x0B]) =
      some (0x00010020, some 0x0B) := by decide
/-- V32: an ACK byte is data to a read. -/
theorem test_read_bytes :
    stepped (fun t => (statusWord t, t.link.rxbuf.read 0, t.chan.rxfifo))
      (engineAt (readingAt 1 0 5000) [0x79, 0x1F]) = some (0x00010020, some 0x79, [0x1F]) := by decide
/-- A byte that arrived in a read's last tick, by R168 and by R391. -/
theorem test_read_last_tick :
    stepped (fun t => (statusWord t, t.chan.rxfifo)) (engineAt (readingAt 1 0 0) [0x0B]) =
      some (0x00010020, []) ∧
    stepped (fun t => (statusWord t, t.chan.rxfifo))
      (configured (engineAt (readingAt 1 0 0) [0x0B]) fun c => { c with readSeesLastTick := false }) =
      some (0x00000026, [0x0B]) := by decide
/-- V35. -/
theorem test_flush_rx :
    stepped (fun t => (statusWord t, t.chan.rxfifo))
      { engineAt Link.reset [0x79, 0x1F] with turns := [.client (.regWrite 0 0x00000007)] } =
      some (0x00000020, []) := by decide
/-- V36. -/
theorem test_set_even_parity :
    stepped (fun t => (statusWord t, t.chan.chpar)) (asking 0x00000008) =
      some (0x00000030, .even) := by decide
/-- V45. -/
theorem test_seq_start :
    stepped (fun t => (statusWord t, seqStatusWord t)) (asking 0x00000009) =
      some (0x00000020, 0x00000010) := by decide
/-- V46. -/
theorem test_seq_start_resume :
    stepped seqStatusWord (asking 0x00000109) = some 0x00000011 := by decide
/-- V13: a length on an operation that takes none. -/
theorem test_bad_request :
    stepped (fun t => (statusWord t, t.chan.txlog)) (asking 0x00010002) =
      some (0x00000028, []) := by decide
/-- V39: a write to a busy block. -/
theorem test_busy_write :
    stepped (fun t => (t.faults, t.link.txbuf))
      { engineAt (waitingAt 1 3) [] with turns := [.client (.arrWrite .txbuf 0 0)] } =
      some ([.clientBusyWrite], []) := by decide
/-- V49: a count of 15 is stored before the fault. -/
theorem test_count_above_14 :
    stepped (fun t => (t.faults, t.seq.ct.read 0, seqStatusWord t))
      { State.reset with
        link := { Link.reset with
          opr := some .readByte, rxn := 1, rxcnt := 1, rxbuf := [(0, 0x0F)], rv := true }
        seq := { Session.reset with
          sbusy := true, step := .identify, sub := 2, sstate := .handshaking } } =
      some ([.ctOverflow], some 0x0F, 0x00000011) := by decide
/-- The worked checksums of V14 to V18 and V20. -/
theorem test_checksums :
    cks [0x1F, 0xFF, 0xF7, 0xE0] = 0xF7 ∧ cks [0x01] = 0xFE ∧ cks [0xFF] = 0x00 ∧
    cks [0xFF, 0xFF] = 0x00 ∧ cks [0x03, 0x01, 0x02, 0x03, 0x04] = 0x07 ∧
    cks [0x02, 0x03] = 0x01 := by decide

/-! ### Witnesses: the hypotheses of each statement hold somewhere, clause by clause -/

theorem witness_DecodeOfEncode :
    (Instr.sendFrame 1).WellFormed false ∧ (Instr.sendFrame 257).WellFormed false ∧
    (Instr.readBytes 1).WellFormed false ∧ (Instr.readBytes 256).WellFormed false ∧
    (Instr.sendCmd 0xFF).WellFormed false ∧ (Instr.seqStart true).WellFormed true := by decide
theorem witness_EncodeOfDecode :
    decodeReq true 0x00000109 = .ok (.seqStart true) ∧
    decodeReq false 0x01010003 = .ok (.sendFrame 257) := by decide
theorem witness_SyntaxLinesGiveTheWords :
    (257 < 258 ∧ 258 < 65536) ∧ (257 < 65535 ∧ 65535 < 65536) ∧ 256 < 257 := by decide
theorem witness_ChecksumRule : 2 ≤ ([0x02, 0x03] : List Byte).length := by decide
theorem witness_FramesAreValid : 1 ≤ ([0x01] : List Byte).length := by decide
theorem witness_ByteOrderOfValues : (1 ≤ 1 ∧ 1 ≤ 256) ∧ (1 ≤ 256 ∧ 256 ≤ 256) := by decide
theorem witness_TransactionByteCounts :
    State.reset.link.lstate = .idle ∧
    (∀ p, LinkCall.frame [0x01] = .frame p → 1 ≤ p.length ∧ p.length ≤ 257) ∧
    ∀ n, LinkCall.readn 256 = .readn n → 1 ≤ n ∧ n ≤ 256 :=
  ⟨rfl, by rintro p ⟨⟩; decide, by rintro n ⟨⟩; decide⟩
theorem witness_ProbeAccepted : State.reset.link.lstate = .idle := by decide
theorem witness_SendCmdAccepted : (loaded [0x11]).link.lstate = .idle := by decide
theorem loaded_read (p : List Byte) (i : Nat) (h : i < p.length) :
    (loaded p).link.txbuf.read i = p[i]? := by
  have hr := Memory.read_writeList [] 0 i p
  rw [if_pos ⟨Nat.zero_le i, by rwa [Nat.zero_add]⟩] at hr
  exact hr
/-- Both ends of the length range. -/
theorem witness_SendFrameAccepted :
    (∃ p : List Byte, p.length = (1 : BitVec 9).toNat ∧ (loaded p).link.lstate = .idle ∧
      ∀ i < (1 : BitVec 9).toNat, (loaded p).link.txbuf.read i = p[i]?) ∧
    ∃ p : List Byte, p.length = (257 : BitVec 9).toNat ∧ (loaded p).link.lstate = .idle ∧
      ∀ i < (257 : BitVec 9).toNat, (loaded p).link.txbuf.read i = p[i]? := by
  have key : ∀ n : Nat, ∃ p : List Byte, p.length = n ∧ (loaded p).link.lstate = .idle ∧
      ∀ i < n, (loaded p).link.txbuf.read i = p[i]? := fun n =>
    ⟨List.replicate n 0x55, List.length_replicate, rfl, fun i hi =>
      loaded_read _ i (by rwa [List.length_replicate])⟩
  exact ⟨key 1, key 257⟩
theorem witness_SendFrameUnwrittenFaults :
    ((loaded []).link.txbuf.read 0 = none ∧ 0 < (1 : BitVec 9).toNat) ∧
    ((loaded [1, 2, 3, 4]).link.txbuf.read 4 = none ∧ 4 < (5 : BitVec 9).toNat) ∧
    ((loaded []).link.txbuf.read 256 = none ∧ 256 < (257 : BitVec 9).toNat ∧
      (257 : BitVec 9).toNat ≤ 257) := by decide
theorem witness_WaitAckAccepted : State.reset.link.lstate = .idle := by decide
theorem witness_ReadsAccepted :
    State.reset.link.lstate = .idle ∧ 1 ≤ (1 : BitVec 9).toNat ∧ (256 : BitVec 9).toNat ≤ 256 := by
  decide
theorem witness_FlushRxDone : (engineAt Link.reset [0x79]).link.lstate = .idle := by decide
theorem witness_SetEvenParityDone : State.reset.link.lstate = .idle := by decide
theorem witness_SeqStartDone :
    State.reset.cfg.seqPresent = true ∧ State.reset.link.lstate = .idle ∧
    State.reset.seq.sbusy = false ∧ (engineAt (sendingAt 0 1) []).cfg.seqPresent = true ∧
    (engineAt (sendingAt 0 1) []).link.lstate ≠ .idle ∧
    (sessionAt .probe 0 .ok).cfg.seqPresent = true ∧
    (sessionAt .probe 0 .ok).seq.sbusy = true := by decide
theorem witness_IllFormedIsBadRequest :
    State.reset.link.lstate = .idle ∧ State.reset.seq.sbusy = false ∧
    ¬ (Instr.sendFrame 0).WellFormed State.reset.cfg.seqPresent ∧
    ¬ (Instr.sendFrame 258).WellFormed State.reset.cfg.seqPresent ∧
    ¬ (Instr.readBytes 0).WellFormed State.reset.cfg.seqPresent ∧
    ¬ (Instr.readBytes 257).WellFormed State.reset.cfg.seqPresent ∧
    ¬ (Instr.seqStart true).WellFormed false := by decide
theorem witness_BusyRequestFaults :
    (engineAt (sendingAt 0 1) []).link.lstate ≠ .idle ∧
    (sessionAt .probe 0 .ok).seq.sbusy = true := by decide
theorem witness_AcceptingStepFrame : ∃ t, exec .probe State.reset = .next t := ⟨_, rfl⟩
/-- A byte in the middle, and the last one. -/
theorem witness_TransmitStep :
    (sendingAt 0 1).lstate = .tx ∧ (sendingAt 0 1).txq[(sendingAt 0 1).txptr]? = some 0x11 ∧
    (sendingAt 1 1).txq[(sendingAt 1 1).txptr]? = some 0xEE := by decide
theorem witness_AckWaitTakesFirstByte :
    (waitingAt 1 1).lstate = .ackwait ∧ (waitingAt 1 1).polls ≠ 0 ∧
    1 < (waitingAt 2 1).attempts ∧ ¬ 1 < (waitingAt 1 1).attempts ∧
    (engineAt (waitingAt 1 1) [0x1F, 0x79]).chan.rxfifo = 0x1F :: [0x79] := by decide
theorem witness_AckWaitWithoutByte :
    (waitingAt 1 1).lstate = .ackwait ∧ (waitingAt 1 1).polls ≠ 0 ∧
    (engineAt (waitingAt 1 1) []).chan.rxfifo = [] ∧ (waitingAt 2 0).polls = 0 := by decide
/-- The first of two bytes, and the last of 256. -/
theorem witness_ReceiveStep :
    ((readingAt 2 0 9).lstate = .rx ∧ (readingAt 2 0 9).rxcnt < 256) ∧
    ((readingAt 256 255 9).rxcnt < 256 ∧ (readingAt 256 255 9).rxcnt + 1 =
      (readingAt 256 255 9).rxn) ∧
    (engineAt (readingAt 2 0 9) [0x0B]).chan.rxfifo = 0x0B :: [] := by decide
/-- Where R168 and R391 part: the last tick of a budget of 5000 has passed. -/
theorem witness_ReceiveStep_last_tick :
    (readingAt 1 0 0).lstate = .rx ∧ (engineAt (readingAt 1 0 0) [0x0B]).chan.rxfifo = [0x0B] ∧
    (engineAt (readingAt 1 0 0) [0x0B]).cfg.readSeesLastTick = true ∧
    (configured (engineAt (readingAt 1 0 0) [0x0B]) fun c =>
      { c with readSeesLastTick := false }).cfg.readPolls = some 5000 := by decide
theorem witness_ReceiveStep_without_byte :
    (readingAt 1 0 0).lstate = .rx ∧ (engineAt (readingAt 1 0 0) []).chan.rxfifo = [] ∧
    (engineAt (readingAt 1 0 0) []).cfg.readPolls = some 5000 ∧ (readingAt 1 0 0).rxpolls = 0 ∧
    (readingAt 1 0 1).rxpolls ≠ 0 ∧
    ({ Config.nominal with readPolls := none } : Config).readPolls = none := by decide
theorem witness_SilentProbeTimesOut :
    legalParameters (asking 0x00000001).cfg ∧ (asking 0x00000001).link.lstate = .idle ∧
    (asking 0x00000001).seq.sbusy = false ∧ (asking 0x00000001).chan.rxfifo = [] ∧
    (asking 0x00000001).turns = [.client (.regWrite 0 0x00000001)] := by decide
theorem witness_SilentCommandUsesItsBound :
    let s := asking (encode (.sendCmd 0x11));
    legalParameters s.cfg ∧ s.link.lstate = .idle ∧ s.seq.sbusy = false ∧ s.chan.rxfifo = [] ∧
    s.turns = [.client (.regWrite 0 (encode (.sendCmd 0x11)))] := by decide
theorem witness_FrameSentOnceAndFirstByteDecides :
    let s : State := { loaded [0x01] with
      chan := { State.reset.chan with rxfifo := [0x79, 0x1F] }
      turns := [.client (.regWrite 0 (encode (.sendFrame 1)))] };
    legalParameters s.cfg ∧ s.link.lstate = .idle ∧ s.seq.sbusy = false ∧
    1 ≤ (1 : BitVec 9).toNat ∧ ([0x01] : List Byte).length = (1 : BitVec 9).toNat ∧
    (∀ i < (1 : BitVec 9).toNat, s.link.txbuf.read i = ([0x01] : List Byte)[i]?) ∧
    s.cfg.longPolls ≠ 0 ∧ s.chan.rxfifo = 0x79 :: [0x1F] ∧
    s.turns = [.client (.regWrite 0 (encode (.sendFrame 1)))] := by decide
theorem witness_SilentWaitAndReadTimeOut :
    (let s := asking 0x00000004;
      legalParameters s.cfg ∧ s.link.lstate = .idle ∧ s.seq.sbusy = false ∧ s.chan.rxfifo = [] ∧
        s.turns = [.client (.regWrite 0 0x00000004)]) ∧
    (let s := asking 0x00000005;
      legalParameters s.cfg ∧ s.link.lstate = .idle ∧ s.seq.sbusy = false ∧ s.chan.rxfifo = [] ∧
        s.cfg.readPolls = some 5000 ∧ s.turns = [.client (.regWrite 0 0x00000005)]) := by decide
theorem witness_ReadTakesBytesInOrder :
    let s : State := { engineAt Link.reset [0x80, 0x00, 0x79] with
      turns := [.client (.regWrite 0 (encode (.readBytes 2)))] };
    legalParameters s.cfg ∧ s.link.lstate = .idle ∧ s.seq.sbusy = false ∧
    1 ≤ (2 : BitVec 9).toNat ∧ (2 : BitVec 9).toNat ≤ 256 ∧
    ([0x80, 0x00] : List Byte).length = (2 : BitVec 9).toNat ∧
    s.chan.rxfifo = [0x80, 0x00] ++ [0x79] ∧
    s.turns = [.client (.regWrite 0 (encode (.readBytes 2)))] := by decide
theorem witness_StepRunsTheRequest :
    legalParameters State.reset.cfg ∧ State.reset.link.lstate = .idle ∧
    State.reset.seq.sbusy = false ∧
    decodeReq State.reset.cfg.seqPresent 0x00000001 = .ok .probe ∧
    decodeReq State.reset.cfg.seqPresent 0x00000003 = .error .lenOutOfRange := by decide

/-- A block that is sending meets the invariant. -/
theorem sending_inv : (engineAt (sendingAt 1 1) [0x79]).Inv where
  arrays := by constructor <;> first | exact List.Pairwise.nil | exact (by rintro c ⟨⟩)
  engine :=
    { ackout_none := rfl
      sending := fun _ => ⟨rfl, Nat.le_refl 1, Nat.le_refl 1⟩
      txptr_lt := fun _ => by decide
      reading := by rintro ⟨⟩
      rxcnt_le := Nat.zero_le _
      rxbuf_held := fun k hk => absurd hk (Nat.not_lt_zero k)
      read_done := by rintro ⟨⟩ }
  session := by constructor <;> simp [engineAt, State.reset, Session.reset]
  faults_nodup := List.nodup_nil

theorem witness_EveryStepKeepsTheInvariant :
    (engineAt (sendingAt 1 1) [0x79]).Inv ∧ ∃ t, step (engineAt (sendingAt 1 1) [0x79]) = .next t :=
  ⟨sending_inv, _, rfl⟩
theorem witness_TheMachineNeverStops :
    (engineAt (sendingAt 1 1) [0x79]).Inv ∧
    legalParameters (engineAt (sendingAt 1 1) [0x79]).cfg := ⟨sending_inv, by decide⟩
theorem witness_ExcludedParametersRefused :
    ({ Config.nominal with cmdAttempts := 0 } : Config).cmdAttempts = 0 ∧
    ({ Config.nominal with stepRetryLimit := some 0 } : Config).stepRetryLimit = some 0 ∧
    ({ Config.nominal with probeLimit := some 0 } : Config).probeLimit = some 0 ∧
    step { State.reset with cfg := { Config.nominal with cmdAttempts := 0 } } =
      .refused .illegalParameter := ⟨rfl, rfl, rfl, rfl⟩
theorem witness_HistoryOnlyGrows : ∃ t, step (engineAt (sendingAt 1 1) [0x79]) = .next t :=
  ⟨_, rfl⟩
theorem witness_StatusBitsBetweenResets :
    (∃ t, step (engineAt (waitingAt 1 1) [0x79]) = .next t) ∧
    (engineAt (waitingAt 1 1) [0x79]).turns.head? ≠ some .reset := ⟨⟨_, rfl⟩, by decide⟩
theorem witness_ResetEventEffect :
    legalParameters (after [.reset]).cfg ∧ (after [.reset]).turns = .reset :: [] := by decide
theorem witness_WhoMoves :
    legalParameters State.reset.cfg ∧ (after [.device 0x79]).turns = .device 0x79 :: [] ∧
    (after [.client (.regRead 2)]).turns = .client (.regRead 2) :: [] ∧
    (after [.source .error]).turns = .source .error :: [] ∧
    (after [.waitIdle]).turns = .waitIdle :: [] ∧ (after [.waitIdle]).link.lstate = .idle ∧
    ({ engineAt (sendingAt 0 1) [] with turns := [.waitIdle] } : State).link.lstate ≠ .idle ∧
    (after [.run]).turns = .run :: [] ∧ State.reset.turns = [] ∧
    (engineAt (sendingAt 0 1) []).link.lstate ≠ .idle ∧
    (sessionAt .probe 0 .ok).link.lstate = .idle ∧ (sessionAt .probe 0 .ok).seq.sbusy = true ∧
    State.reset.link.lstate = .idle ∧ State.reset.seq.sbusy = false := by decide
theorem witness_StatusFields :
    State.reset.link.rxcnt ≤ 256 ∧ (engineAt (readingAt 256 256 0) []).link.rxcnt ≤ 256 := by decide
theorem witness_SeqStatusFields : (sessionAt .erase 1 .ok).cfg.seqPresent = true := by decide
theorem witness_ClientWrites :
    (engineAt (waitingAt 1 3) []).link.lstate ≠ .idle ∧ (sessionAt .go 0 .ok).seq.sbusy = true ∧
    State.reset.link.lstate = .idle ∧ State.reset.seq.sbusy = false ∧ 256 < 257 := by decide
theorem witness_BadAccessesFault :
    (4 ≤ 4 ∧ ({ Config.nominal with seqPresent := false } : Config).seqPresent = false) ∧
    257 ≤ 257 ∧ 256 ≤ 256 ∧ 16 ≤ 16 ∧ Arr.rxbuf ≠ .txbuf := by decide
theorem witness_ReadsChangeNothing :
    (∃ n, Access.regRead 2 = .regRead n) ∧ ∃ r i, Access.arrRead .ct 15 = .arrRead r i :=
  ⟨⟨_, rfl⟩, _, _, rfl⟩
/-- Each clause in a state of its own, at the edge of its range. -/
theorem witness_ArrayReads :
    (let s : State := { loaded [] with link := { Link.reset with txbuf := [(256, 0x01)] } };
      256 < 257 ∧ s.link.txbuf.read 256 = some 0x01 ∧ s.link.txbuf.read 255 = none) ∧
    (let s := replyAt .flashSize 4 [0x80, 0x00];
      1 < s.link.rxcnt ∧ s.link.rxbuf.read 1 = some 0x00 ∧ s.link.rxcnt ≤ 2 ∧ 2 < 256) ∧
    (let s := sessionAt .erase 0 .ok;
      s.cfg.seqPresent = true ∧ 12 < 16 ∧ s.seq.ctValid.getLsbD 12 = true ∧
        s.seq.ct.read 12 = some 0x92 ∧ s.seq.ctValid.getLsbD 13 = false) ∧
    (let s := sessionWith .erase 0 .ok fun q => { q with ident := [(0, 0x04), (1, 0x10)] };
      s.cfg.seqPresent = true ∧ 1 < 256 ∧ 1 < idBytes s.cfg s.seq.idLen ∧
        s.seq.sstate ∉ [.disconnected, .handshaking, .failed] ∧ s.seq.ident.read 1 = some 0x10 ∧
        idBytes s.cfg s.seq.idLen ≤ 2) ∧
    (let s := sessionAt .identify 9 .ok;
      s.cfg.seqPresent = true ∧ s.seq.sstate ∈ [.disconnected, .handshaking]) := by decide
/-- A first failure below a limit of 2, and one that reaches a limit of 1. -/
theorem witness_FailedAttemptIsCounted :
    (let s := configured (sessionAt .erase 1 .nack) fun c => { c with stepRetryLimit := some 2 };
      s.seq.tries ≠ 0xFFFFFFFF ∧ s.cfg.stepRetryLimit = some 2 ∧ s.seq.tries.toNat + 1 < 2) ∧
    (let s := configured (sessionAt .erase 1 .nack) fun c => { c with stepRetryLimit := some 1 };
      s.seq.tries ≠ 0xFFFFFFFF ∧ s.cfg.stepRetryLimit = some 1 ∧ 1 ≤ s.seq.tries.toNat + 1) := by
  decide
theorem witness_ProbeStepProcedure :
    (∀ k < 3, (sessionAt .probe k .ok).link.lstate = .idle ∧
      (sessionAt .probe k .ok).seq.step = .probe ∧ (sessionAt .probe k .ok).seq.sub = k ∧
      (sessionAt .probe k .ok).link.result = .ok) ∧
    (let s := configured (sessionAt .probe 2 .timeout) fun c => { c with probeLimit := some 2 };
      s.link.result ≠ .ok ∧ s.cfg.probeLimit = some 2 ∧ s.seq.probes + 1 < 2) ∧
    (let s := configured (sessionAt .probe 2 .timeout) fun c => { c with probeLimit := some 1 };
      s.link.result ≠ .ok ∧ s.cfg.probeLimit = some 1 ∧ 1 ≤ s.seq.probes + 1) := by decide
/-- A count of 14, the version with a count of 11 and with one of 0, and eleven opcodes. -/
theorem witness_GetHalfOfIdentify :
    (let s := sessionAt .identify 0 .ok;
      s.link.lstate = .idle ∧ s.seq.step = .identify ∧ s.seq.sub = 0) ∧
    (let s := sessionAt .identify 1 .ok;
      s.seq.sub = 1 ∧ s.link.result = .ok) ∧
    (let s := replyAt .identify 2 [0x0E];
      s.link.lstate = .idle ∧ s.seq.sub = 2 ∧ s.link.result = .ok ∧
        s.link.rxbuf.read 0 = some 0x0E ∧ (0x0E : Byte).toNat ≤ 14) ∧
    (let s := replyAt .identify 3 [0x22];
      s.seq.sub = 3 ∧ s.link.result = .ok ∧ s.seq.ct.read 0 = some 0x0B ∧
        s.link.rxbuf.read 0 = some 0x22 ∧ 1 ≤ (0x0B : Byte).toNat ∧ (0x0B : Byte).toNat ≤ 14) ∧
    (let s := { replyAt .identify 3 [0x22] with
        seq := { sessionIn .identify 3 with ct := [(0, 0x00)] } };
      s.seq.sub = 3 ∧ s.link.result = .ok ∧ s.seq.ct.read 0 = some 0x00 ∧
        s.link.rxbuf.read 0 = some 0x22 ∧ (0x00 : Byte).toNat = 0) ∧
    (let s := replyAt .identify 4 [0x00, 0x01, 0x02, 0x11, 0x21, 0x31, 0x44, 0x63, 0x73, 0x82, 0x92];
      s.seq.sub = 4 ∧ s.link.result = .ok ∧ s.seq.ct.read 0 = some 0x0B ∧
        ∀ i < (0x0B : Byte).toNat, (s.link.rxbuf.read i).isSome) := by decide
theorem witness_GetIdHalfOfIdentify :
    (let s := sessionAt .identify 5 .ok;
      s.link.lstate = .idle ∧ s.seq.step = .identify ∧ s.link.result = .ok ∧ s.seq.sub = 5 ∧
        s.seq.ctValid.getLsbD 4 = true ∧ s.seq.ct.read 4 = some 0x02) ∧
    ((sessionAt .identify 6 .ok).seq.sub = 6 ∧ (sessionAt .identify 6 .ok).link.result = .ok) ∧
    (let s := replyAt .identify 7 [0x00];
      s.seq.sub = 7 ∧ s.link.result = .ok ∧ s.link.rxbuf.read 0 = some 0x00 ∧
        1 ≤ idBytes s.cfg 0x00 ∧ idBytes s.cfg 0xFF ≤ 256) ∧
    (let s := replyAt .identify 8 [0x04, 0x10];
      s.seq.sub = 8 ∧ s.link.result = .ok ∧
        ∀ i < idBytes s.cfg s.seq.idLen, (s.link.rxbuf.read i).isSome) ∧
    ((sessionAt .identify 9 .ok).seq.sub = 9 ∧ (sessionAt .identify 9 .ok).link.result = .ok) := by
  decide
/-- The first and the last operation, a count of 15, and the two sides of the ID range. -/
theorem witness_IdentifyFailures :
    (let s := sessionAt .identify 1 .timeout;
      s.link.lstate = .idle ∧ s.seq.step = .identify ∧ 1 ≤ s.seq.sub ∧ s.link.result ≠ .ok) ∧
    (let s := sessionAt .identify 9 .nack;
      s.seq.sub ≤ 9 ∧ s.link.result ≠ .ok) ∧
    (let s := replyAt .identify 2 [0x0F];
      s.seq.sub = 2 ∧ s.link.result = .ok ∧ s.link.rxbuf.read 0 = some 0x0F ∧
        14 < (0x0F : Byte).toNat) ∧
    (let s := configured (replyAt .identify 7 [0x01]) fun c =>
        { c with idBytesExceptions := [(0x01, 257)] };
      s.seq.sub = 7 ∧ s.link.result = .ok ∧ s.link.rxbuf.read 0 = some 0x01 ∧
        256 < idBytes s.cfg 0x01) ∧
    (let s := configured (replyAt .identify 7 [0x01]) fun c =>
        { c with idBytesExceptions := [(0x01, 0)] };
      s.link.rxbuf.read 0 = some 0x01 ∧ idBytes s.cfg 0x01 < 1) := by decide
theorem witness_FlashSizeProcedure :
    (∀ k < 4, (sessionAt .flashSize k .ok).link.lstate = .idle ∧
      (sessionAt .flashSize k .ok).seq.step = .flashSize ∧
      (sessionAt .flashSize k .ok).seq.ctValid.getLsbD 5 = true ∧
      (sessionAt .flashSize k .ok).seq.ct.read 5 = some 0x11 ∧
      (sessionAt .flashSize k .ok).seq.sub = k ∧ (sessionAt .flashSize k .ok).link.result = .ok) ∧
    (let s := replyAt .flashSize 4 [0x80, 0x00];
      s.link.lstate = .idle ∧ s.seq.ct.read 5 = some 0x11 ∧ s.seq.sub = 4 ∧ s.link.result = .ok ∧
        s.link.rxbuf.read 0 = some 0x80 ∧ s.link.rxbuf.read 1 = some 0x00) ∧
    ((sessionAt .flashSize 1 .nack).link.result ≠ .ok ∧
      (sessionAt .flashSize 1 .nack).seq.sub = 1) ∧
    ((sessionAt .flashSize 2 .timeout).link.result ≠ .ok ∧
      2 ≤ (sessionAt .flashSize 2 .timeout).seq.sub) ∧
    ((sessionAt .flashSize 4 .timeout).link.result ≠ .ok ∧
      (sessionAt .flashSize 4 .timeout).seq.sub ≤ 4) := by decide
/-- A failed unprotect, no limit, a limit just kept and one just passed. -/
theorem witness_UnprotectAndRestart :
    (∀ k < 2, (sessionAt .unprotect k .ok).link.lstate = .idle ∧
      (sessionAt .unprotect k .ok).seq.step = .unprotect ∧
      (sessionAt .unprotect k .ok).seq.ctValid.getLsbD 12 = true ∧
      (sessionAt .unprotect k .ok).seq.ct.read 12 = some 0x92 ∧
      (sessionAt .unprotect k .ok).seq.sub = k ∧
      (sessionAt .unprotect k .ok).link.result = .ok) ∧
    (sessionAt .unprotect 1 .nack).link.result ≠ .ok ∧
    (let s := sessionAt .unprotect 1 .ok;
      s.seq.restarts ≠ 0xFFFFFFFF ∧ s.cfg.restartLimit = none) ∧
    (let s := configured (sessionAt .unprotect 1 .ok) fun c => { c with restartLimit := some 1 };
      s.cfg.restartLimit = some 1 ∧ s.seq.restarts.toNat + 1 ≤ 1) ∧
    (let s := configured (sessionAt .unprotect 1 .ok) fun c => { c with restartLimit := some 0 };
      s.cfg.restartLimit = some 0 ∧ 0 < s.seq.restarts.toNat + 1) := by decide
/-- The extended form (the table of P1) and a legacy one. -/
theorem witness_EraseFormByOpcode :
    (∀ k < 3, (sessionAt .erase k .ok).link.lstate = .idle ∧
      (sessionAt .erase k .ok).seq.step = .erase ∧
      (sessionAt .erase k .ok).seq.ctValid.getLsbD 8 = true ∧
      (sessionAt .erase k .ok).seq.ct.read 8 = some 0x44 ∧
      (sessionAt .erase k .ok).seq.sub = k ∧ (sessionAt .erase k .ok).link.result = .ok) ∧
    (let s := sessionWith .erase 1 .ok fun q => { q with ct := tableP1.write 8 0x43 };
      s.seq.ctValid.getLsbD 8 = true ∧ s.seq.ct.read 8 = some 0x43 ∧ s.seq.sub = 1) ∧
    (sessionAt .erase 1 .nack).link.result ≠ .ok ∧
    (sessionAt .erase 2 .timeout).link.result ≠ .ok := by decide
/-- Pages of 1, 256, 0 and 257 bytes. -/
theorem witness_PageSourcePull :
    (let s := sessionAt .program 0 .ok;
      s.link.lstate = .idle ∧ s.seq.step = .program ∧ s.seq.sub = 0 ∧ s.seq.latch = none ∧
        s.source = []) ∧
    (1 ≤ (List.replicate 1 (0xFF : Byte)).length ∧
      (List.replicate 256 (0xFF : Byte)).length ≤ 256) ∧
    (([] : List Byte).length < 1 ∧ 256 < (List.replicate 257 (0xFF : Byte)).length) := by
  simp only [List.length_replicate]
  decide
theorem witness_PageWriteProcedure :
    (∀ k < 4,
      let s := sessionWith .program k .ok fun q =>
        { q with latch := some { base := 0x08000000, data := [1, 2, 3, 4] } };
      s.link.lstate = .idle ∧ s.seq.step = .program ∧
        s.seq.latch = some { base := 0x08000000, data := [1, 2, 3, 4] } ∧
        s.seq.ctValid.getLsbD 7 = true ∧ s.seq.ct.read 7 = some 0x31 ∧ s.seq.sub = k ∧
        s.link.result = .ok) ∧
    (sessionAt .program 1 .nack).link.result ≠ .ok ∧
    (sessionAt .program 3 .nack).link.result ≠ .ok ∧
    (1 ≤ (List.replicate 1 (0xFF : Byte)).length ∧
      (List.replicate 256 (0xFF : Byte)).length ≤ 256) := by
  simp only [List.length_replicate]
  decide
theorem witness_GoStepProcedure :
    (let s := sessionAt .go 0 .ok;
      s.link.lstate = .idle ∧ s.seq.step = .go ∧ s.seq.startValid = false) ∧
    (∀ k < 3,
      let s := sessionWith .go k .ok fun q => { q with startValid := true };
      s.link.lstate = .idle ∧ s.seq.step = .go ∧ s.seq.startValid = true ∧
        s.seq.ctValid.getLsbD 6 = true ∧ s.seq.ct.read 6 = some 0x21 ∧ s.seq.sub = k ∧
        s.link.result = .ok) ∧
    (sessionAt .go 1 .nack).link.result ≠ .ok ∧ (sessionAt .go 2 .nack).link.result ≠ .ok := by
  decide
/-- Each step at the position that reads its entry, no entry valid. -/
theorem witness_UnfilledEntryFaults :
    (let s := sessionWith .identify 5 .ok fun q => { q with ctValid := 0 };
      s.link.lstate = .idle ∧ s.seq.step = .identify ∧ s.seq.sub = 5 ∧ s.link.result = .ok ∧
        s.seq.ctValid.getLsbD 4 = false) ∧
    (let s := sessionWith .flashSize 0 .ok fun q => { q with ctValid := 0 };
      s.seq.step = .flashSize ∧ s.seq.sub = 0 ∧ s.seq.ctValid.getLsbD 5 = false) ∧
    (let s := sessionWith .unprotect 0 .ok fun q => { q with ctValid := 0 };
      s.seq.step = .unprotect ∧ s.seq.sub = 0 ∧ s.seq.ctValid.getLsbD 12 = false) ∧
    (let s := sessionWith .erase 0 .ok fun q => { q with ctValid := 0 };
      s.seq.step = .erase ∧ s.seq.sub = 0 ∧ s.seq.ctValid.getLsbD 8 = false) ∧
    (let s := sessionWith .program 0 .ok fun q =>
        { q with ctValid := 0, latch := some { base := 0, data := [0xFF] } };
      s.seq.step = .program ∧ s.seq.sub = 0 ∧ s.seq.latch.isSome ∧
        s.seq.ctValid.getLsbD 7 = false) ∧
    (let s := sessionWith .go 0 .ok fun q => { q with ctValid := 0, startValid := true };
      s.seq.step = .go ∧ s.seq.sub = 0 ∧ s.seq.startValid = true ∧
        s.seq.ctValid.getLsbD 6 = false) := by decide
theorem witness_SequencerWorksThroughOperations :
    (sessionAt .probe 0 .ok).link.lstate = .idle ∧
    ∃ t, seqStep (sessionAt .probe 0 .ok) = .next t := ⟨rfl, _, rfl⟩

/-- A client that reads an element of `RXBUF` nothing was received into. -/
def readsUnreceived : State :=
  { engineAt (sendingAt 1 1) [0x79] with turns := [.client (.arrRead .rxbuf 0)] }

theorem witness_OnlyClientReadsFindNoReply :
    readsUnreceived.Inv ∧
    ∃ t, step readsUnreceived = .next t ∧ .rxbufUnwritten ∈ t.faults :=
  ⟨sending_inv.congr rfl rfl rfl List.nodup_nil, _, rfl, by decide⟩

/-- A session in step GO without an entry point: its next step ends it. -/
def endingSession : State := sessionWith .go 0 .ok fun q => { q with ct := [], ctValid := 0 }

theorem ending_inv : endingSession.Inv where
  arrays := by
    constructor <;> first
      | exact List.Pairwise.nil
      | exact (by rintro c ⟨⟩)
  engine :=
    { ackout_none := rfl
      sending := by rintro (h | h) <;> cases h
      txptr_lt := by rintro ⟨⟩
      reading := by rintro ⟨⟩
      rxcnt_le := Nat.zero_le _
      rxbuf_held := fun k hk => absurd hk (Nat.not_lt_zero k)
      read_done := by rintro _ _ ⟨⟩ }
  session :=
    { running := fun _ =>
        { present := rfl, step_run := by decide, sub_le := by decide, sstate_during := rfl
          not_done := rfl, no_failure := by decide, no_go := rfl, awaited := trivial
          latched := by rintro ⟨⟩, entry := fun _ h => absurd rfl h }
      stopped := by rintro ⟨⟩
      done_iff := by decide
      outcome := by rintro ⟨⟩
      unstarted := by rintro ⟨⟩
      page_len := by rintro p ⟨⟩
      ct_held := fun i hi => by simp [endingSession, sessionWith] at hi }
  faults_nodup := List.nodup_nil

theorem witness_SessionEndsInOneOfThree :
    endingSession.Inv ∧ endingSession.seq.sbusy = true ∧
    endingSession.turns.head? ≠ some .reset ∧
    ∃ t, step endingSession = .next t ∧ t.seq.sbusy = false :=
  ⟨ending_inv, rfl, by decide, _, rfl, rfl⟩

end Sys2Proof.Tests
end

/-! ### Who moves in a step (00_scope.md R5) -/

namespace Sys2Proof.Machine

/-- `t` is the next turn, `rest` the turns after it. -/
theorem step_of_turn {s : State} {t : Turn} {rest : List Turn} (hl : legalParameters s.cfg)
    (ht : s.turns = t :: rest) : step s = takeTurn t { s with turns := rest } := by
  simp only [step, move, if_pos hl, ht]

theorem step_of_no_turn {s : State} (hl : legalParameters s.cfg) (ht : s.turns = []) :
    step s = advance s := by
  simp only [step, move, if_pos hl, ht]

theorem advance_of_busy {s : State} (hb : s.link.lstate ≠ .idle) : advance s = engineStep s :=
  if_pos hb

theorem advance_of_session {s : State} (hi : s.link.lstate = .idle) (hs : s.seq.sbusy = true) :
    advance s = seqStep s := by
  simp [advance, hi, hs]

theorem advance_of_rest {s : State} (hi : s.link.lstate = .idle) (hs : s.seq.sbusy = false) :
    advance s = .next s := by
  simp [advance, hi, hs]

/-- The block's own move comes with a `run` turn, and with no turn left. -/
theorem step_of_own_move {s : State} {rest : List Turn} (hl : legalParameters s.cfg)
    (ht : s.turns = .run :: rest ∨ s.turns = [] ∧ rest = []) :
    step s = advance { s with turns := rest } := by
  obtain hrun | ⟨hnil, rfl⟩ := ht
  · exact step_of_turn hl hrun
  · rw [step_of_no_turn hl hnil, ← hnil]

/-- While the engine is busy a wait stays the next turn (30_encoding.md R145). -/
theorem step_of_wait_busy {s : State} {rest : List Turn} (hl : legalParameters s.cfg)
    (ht : s.turns = .waitIdle :: rest) (hb : s.link.lstate ≠ .idle) : step s = engineStep s := by
  rw [step_of_turn hl ht]
  simp [takeTurn, State.busy, hb, ← ht]

theorem step_of_wait_idle {s : State} {rest : List Turn} (hl : legalParameters s.cfg)
    (ht : s.turns = .waitIdle :: rest) (hi : s.link.lstate = .idle) :
    step s = .next { s with turns := rest } := by
  rw [step_of_turn hl ht]
  simp [takeTurn, State.busy, hi]

/-- Settles O39: one equation of `step` per kind of turn; the block's own move by who is busy. -/
theorem whoMoves : Obligations.WhoMoves := by
  intro s rest hl
  refine ⟨fun a ht => step_of_turn hl ht, fun b ht => step_of_turn hl ht,
    fun it ht => step_of_turn hl ht,
    fun ht => ⟨step_of_wait_busy hl ht, step_of_wait_idle hl ht⟩, fun ht => ?_⟩
  rw [step_of_own_move hl ht]
  exact ⟨fun hb => advance_of_busy hb, fun hi hs => advance_of_session hi hs,
    fun hi hs => advance_of_rest hi hs⟩

end Sys2Proof.Machine

/-! ### The engine keeps the invariant -/

namespace Sys2Proof.Machine

/-- What a step of the engine can do, phase by phase. -/
inductive EngineMove (s : State) : State → Prop where
  /-- Nothing is enabled. -/
  | idle (phase : s.link.lstate = .idle) : EngineMove s s
  /-- One byte of `TXQ` is sent (R164). -/
  | sent (b : Byte) (phase : s.link.lstate = .tx) : EngineMove s (s.chanWrite b).afterSent
  /-- A wait runs out of polls (R166). -/
  | unanswered (phase : s.link.lstate = .ackwait) : EngineMove s (s.endWait .timeout)
  /-- A wait takes a byte (R165). -/
  | answered (b : Byte) (rest : List Byte) (phase : s.link.lstate = .ackwait) :
      EngineMove s
        ((({ s with chan := { s.chan with rxfifo := rest } } : State).setLastRx b).endWait
          (classify b))
  /-- A wait spends a poll (R166). -/
  | polled (phase : s.link.lstate = .ackwait) : EngineMove s s.tick.spendPoll
  /-- A read runs out of budget (R168). -/
  | readTimeout (phase : s.link.lstate = .rx) : EngineMove s (s.finish .timeout)
  /-- A read stores a byte (R168). -/
  | stored (b : Byte) (rest : List Byte) (phase : s.link.lstate = .rx)
      (room : s.link.rxcnt < Arr.rxbuf.size) :
      EngineMove s
        (({ s with chan := { s.chan with rxfifo := rest } } : State).storeRx b).afterStored
  /-- A read spends a tick (R168). -/
  | readTick (phase : s.link.lstate = .rx) : EngineMove s s.tick.spendRxPoll

theorem txStep_move {s t : State} (hl : s.link.lstate = .tx) (h : txStep s = .next t) :
    EngineMove s t := by
  unfold txStep at h
  split at h <;> cases h
  exact .sent _ hl

theorem ackStep_move {s : State} (hl : s.link.lstate = .ackwait) : EngineMove s (ackStep s) := by
  unfold ackStep State.chanRead
  split
  · exact .unanswered hl
  · cases s.chan.rxfifo with
    | nil => exact .polled hl
    | cons b rest => exact .answered b rest hl

theorem rxStep_move {s t : State} (hl : s.link.lstate = .rx) (h : rxStep s = .next t) :
    EngineMove s t := by
  rcases rxStep_cases s with ⟨-, e⟩ | ⟨b, rest, -, hroom, e⟩ | ⟨-, e⟩ | ⟨-, e⟩ <;> rw [e] at h <;>
    cases h
  · exact .readTimeout hl
  · exact .stored b rest hl hroom
  · exact .readTick hl

/-- Every step of the engine is one of these. -/
theorem engineStep_move {s t : State} (h : engineStep s = .next t) : EngineMove s t := by
  unfold engineStep at h
  split at h
  · rename_i hl
    cases h
    exact .idle hl
  · rename_i hl
    exact txStep_move hl h
  · rename_i hl
    cases h
    exact ackStep_move hl
  · rename_i hl
    exact rxStep_move hl h

/-- The operation of a state that sends or waits is no read. -/
theorem sendingOk.not_read {s : State} (h : sendingOk s) : s.lastWasRead = false := by
  unfold sendingOk at h
  unfold State.lastWasRead
  split at h <;> simp_all

/-- Only a command pair has a second attempt, and it is sent again whole (R167, R172). -/
theorem sendingOk.reissued {s : State} (h : sendingOk s) (ha : 1 < s.link.attempts) :
    sendingOk s.reissue ∧ 0 < s.link.txq.length := by
  unfold sendingOk at h
  split at h
  · omega
  · rename_i c hop
    obtain ⟨hq, h1, h2⟩ := h
    refine ⟨?_, by simp [hq, encCmd]⟩
    simp only [sendingOk, State.reissue_link, State.reissue_cfg, hop]
    exact ⟨hq, by omega, by omega⟩
  · omega
  · omega
  · exact h.elim

/-- Sending a byte of `TXQ` leaves another to send, or starts the wait. -/
theorem LinkInv.sent {s : State} (h : LinkInv s) (hl : s.link.lstate = .tx) (b : Byte) :
    LinkInv (s.chanWrite b).afterSent := by
  have hs := h.sending (.inl hl)
  have hp := h.txptr_lt hl
  unfold State.afterSent
  split
  · exact ⟨h.ackout_none, fun _ => hs.congr rfl rfl rfl rfl rfl fun _ => rfl, by rintro ⟨⟩,
      by rintro ⟨⟩, h.rxcnt_le, h.rxbuf_held, by rintro ⟨⟩⟩
  · rename_i hne
    refine ⟨h.ackout_none, fun _ => hs.congr rfl rfl rfl rfl rfl id, fun _ => ?_, ?_, h.rxcnt_le,
      h.rxbuf_held, ?_⟩
    · exact Nat.lt_of_le_of_ne hp hne
    · exact fun e => absurd (hl.symm.trans e) (by decide)
    · exact fun e => absurd (hl.symm.trans e) (by decide)

/-- The end of a wait re-issues the operation or finishes it. -/
theorem LinkInv.waitEnded {s : State} (h : LinkInv s) (hl : s.link.lstate = .ackwait)
    (o : AckOutcome) : LinkInv (s.endWait o) := by
  have hs := h.sending (.inr hl)
  rw [State.endWait_eq]
  split
  · rename_i ho
    obtain ⟨hr, hq⟩ := hs.reissued ho.2
    exact ⟨rfl, fun _ => hr, fun _ => hq, by rintro ⟨⟩, h.rxcnt_le, h.rxbuf_held, by rintro ⟨⟩⟩
  · refine h.finished rfl rfl rfl rfl fun _ hread => ?_
    exact absurd hs.not_read (by rw [show s.lastWasRead = true from hread]; decide)

/-- A byte read is stored, and the last one completes the read. -/
theorem LinkInv.stored {s : State} (h : LinkInv s) (hl : s.link.lstate = .rx)
    (hroom : s.link.rxcnt < Arr.rxbuf.size) (b : Byte) : LinkInv (s.storeRx b).afterStored := by
  obtain ⟨hr, hlt⟩ := h.reading hl
  have held : ∀ k < s.link.rxcnt + 1, ((s.link.rxbuf.write s.link.rxcnt b).read k).isSome := by
    intro k hk
    rw [Memory.read_write]
    split
    · rfl
    · exact h.rxbuf_held k (by omega)
  unfold State.afterStored
  split
  · rename_i he
    exact ⟨rfl, by rintro (⟨⟨⟩⟩ | ⟨⟨⟩⟩), by rintro ⟨⟩, by rintro ⟨⟩, hroom, held,
      fun _ _ _ => ⟨hr, he⟩⟩
  · rename_i hne
    refine ⟨h.ackout_none, by simp [hl], by simp [hl], fun _ => ⟨hr, ?_⟩, hroom, held,
      by simp [hl]⟩
    exact Nat.lt_of_le_of_ne hlt hne

theorem EngineMove.linkInv {s t : State} (m : EngineMove s t) (h : LinkInv s) : LinkInv t := by
  obtain ⟨hout, hsend, hptr, hread, hcnt, hheld, hdone⟩ := id h
  cases m with
  | idle => exact h
  | sent b hl => exact h.sent hl b
  | unanswered hl => exact h.waitEnded hl _
  | answered b rest hl =>
    have h' : LinkInv (({ s with chan := { s.chan with rxfifo := rest } } : State).setLastRx b) :=
      ⟨hout, hsend, hptr, hread, hcnt, hheld, hdone⟩
    exact h'.waitEnded hl _
  | polled hl => exact ⟨hout, hsend, hptr, hread, hcnt, hheld, hdone⟩
  | readTimeout hl => exact h.finished rfl rfl rfl rfl (by rintro ⟨⟩)
  | stored b rest hl hroom =>
    have h' : LinkInv { s with chan := { s.chan with rxfifo := rest } } := h.congr rfl rfl
    exact h'.stored hl hroom b
  | readTick hl =>
    unfold State.spendRxPoll
    split
    · exact ⟨hout, hsend, hptr, hread, hcnt, hheld, hdone⟩
    · exact ⟨hout, hsend, hptr, hread, hcnt, hheld, hdone⟩

/-- The engine's step keeps the operation it works on. -/
theorem EngineMove.opr {s t : State} (m : EngineMove s t) : t.link.opr = s.link.opr := by
  cases m with
  | sent => unfold State.afterSent; split <;> rfl
  | unanswered => rw [State.endWait_eq]; split <;> rfl
  | answered => rw [State.endWait_eq]; split <;> rfl
  | stored => unfold State.afterStored; split <;> rfl
  | readTick => unfold State.spendRxPoll; split <;> rfl
  | _ => rfl

/-- `RXBUF` stays as it was, or takes one byte inside it. -/
theorem EngineMove.rxbuf {s t : State} (m : EngineMove s t) :
    t.link.rxbuf = s.link.rxbuf ∨
      ∃ b, s.link.rxcnt < Arr.rxbuf.size ∧ t.link.rxbuf = s.link.rxbuf.write s.link.rxcnt b := by
  cases m with
  | sent => unfold State.afterSent; split <;> exact .inl rfl
  | unanswered => rw [State.endWait_eq]; split <;> exact .inl rfl
  | answered => rw [State.endWait_eq]; split <;> exact .inl rfl
  | stored b rest hl hroom =>
    unfold State.afterStored
    split <;> exact .inr ⟨b, hroom, rfl⟩
  | readTick => unfold State.spendRxPoll; split <;> exact .inl rfl
  | _ => exact .inl rfl

theorem engineStep_inv {s t : State} (h : s.Inv) (e : engineStep s = .next t) : t.Inv := by
  have m := engineStep_move e
  obtain ⟨ht, -, htx, -⟩ := engineStep_frame e
  have hseq : t.seq = s.seq := by rw [ht]
  have hcfg : t.cfg = s.cfg := by rw [ht]
  have hf : t.faults = s.faults := by rw [ht]
  refine ⟨?_, m.linkInv h.engine, h.session.congr hseq hcfg m.opr, hf ▸ h.faults_nodup⟩
  obtain hrx | ⟨b, hroom, hrx⟩ := m.rxbuf
  · exact h.arrays.congr (by rw [hseq]) (by rw [hseq]) htx hrx
  · have ha := h.arrays
    exact ⟨htx ▸ ha.txbuf_wf, hrx ▸ Memory.wf_write ha.rxbuf_wf _ b, hseq ▸ ha.ct_wf,
      hseq ▸ ha.ident_wf, htx ▸ ha.txbuf_within, hrx ▸ Memory.within_write ha.rxbuf_within hroom b,
      hseq ▸ ha.ct_within, hseq ▸ ha.ident_within⟩

end Sys2Proof.Machine

/-! ### The accepting step keeps the invariant -/

namespace Sys2Proof.Machine

/-- An operation that sends starts with a byte to send. -/
theorem LinkInv.sends {s : State} (h : LinkInv s) {i : Instr} {bytes : List Byte} {k : Word}
    {n : Nat}
    (hok : sendingOk ((s.latchRequest i).startTx bytes k n)) (hb : 0 < bytes.length) :
    LinkInv ((s.latchRequest i).startTx bytes k n) :=
  ⟨h.ackout_none, fun _ => hok, fun _ => hb, by rintro ⟨⟩, h.rxcnt_le, h.rxbuf_held, by rintro ⟨⟩⟩

/-- A read starts with nothing received. -/
theorem LinkInv.reads {s : State} (h : LinkInv s) {i : Instr} {n k : Nat}
    (hok : readingOk ((s.latchRequest i).startRx n k)) (hn : 0 < n) :
    LinkInv ((s.latchRequest i).startRx n k) :=
  ⟨h.ackout_none, by rintro (⟨⟨⟩⟩ | ⟨⟨⟩⟩), by rintro ⟨⟩, fun _ => ⟨hok, hn⟩, Nat.zero_le _,
    fun k hk => absurd hk (Nat.not_lt_zero k), by rintro ⟨⟩⟩

theorem LinkInv.waits {s : State} (h : LinkInv s) (k : Word) :
    LinkInv ((s.latchRequest .waitAck).startWait k) :=
  ⟨h.ackout_none, fun _ => ⟨rfl, rfl, rfl⟩, by rintro ⟨⟩, by rintro ⟨⟩, h.rxcnt_le, h.rxbuf_held,
    by rintro ⟨⟩⟩

theorem LinkInv.badRequest {s : State} (h : LinkInv s) (v : Word) : LinkInv (s.badRequest v) :=
  h.finished rfl rfl rfl rfl (by rintro ⟨⟩)

theorem LinkInv.raise {s : State} (h : LinkInv s) (r : FaultReason) : LinkInv (s.raise r) :=
  h.congr (State.raise_link r s) (State.raise_cfg r s)

/-- The accepting step of every operation leaves a consistent engine. -/
theorem LinkInv.accepted {s : State} (h : LinkInv s) (hc : s.cfg.cmdAttempts ≠ 0) (i : Instr) :
    LinkInv (accepted i s) := by
  cases i with
  | probe => exact h.sends ⟨rfl, rfl⟩ (by decide)
  | sendCmd c =>
    exact h.sends ⟨rfl, Nat.one_le_iff_ne_zero.2 hc, Nat.le_refl _⟩ (Nat.zero_lt_succ 1)
  | sendFrame n =>
    dsimp only [Machine.accepted]
    split
    · rename_i hn
      split
      · rename_i p hp
        refine h.sends ⟨hn, ?_, rfl⟩ (by simp [encFrame])
        show (s.txPayload n.toNat).map encFrame = some (encFrame p)
        rw [hp]
        rfl
      · exact h.raise _
    · exact h.badRequest _
  | waitAck => exact h.waits _
  | readByte => exact h.reads rfl Nat.one_pos
  | readBytes n =>
    dsimp only [Machine.accepted]
    split
    · rename_i hn
      exact h.reads ⟨hn, rfl⟩ hn.1
    · exact h.badRequest _
  | flushRx => exact h.finished rfl rfl rfl rfl (by rintro _ ⟨⟩)
  | setEvenParity => exact h.finished rfl rfl rfl rfl (by rintro _ ⟨⟩)
  | seqStart resume =>
    dsimp only [Machine.accepted]
    split
    · exact h.raise _
    · split
      · exact h.finished rfl rfl rfl rfl (by rintro _ ⟨⟩)
      · exact h.badRequest _

/-- `SEQ_START` keeps the contents of `CT` and `ID`, and no other operation touches them (R281). -/
theorem accepted_tables (i : Instr) (s : State) :
    (accepted i s).seq.ct = s.seq.ct ∧ (accepted i s).seq.ident = s.seq.ident := by
  by_cases hi : ∃ r, i = .seqStart r
  · obtain ⟨r, rfl⟩ := hi
    dsimp only [accepted]
    repeat' split
    all_goals simp [Session.start]
  · rw [(accepted_only i s).2.2.1 fun r e => hi ⟨r, e⟩]
    exact ⟨rfl, rfl⟩

theorem ArraysInv.accepted {s : State} (h : ArraysInv s) (i : Instr) :
    ArraysInv (accepted i s) := by
  obtain ⟨hct, hid⟩ := accepted_tables i s
  obtain ⟨-, -, -, htx, hrx, -⟩ := accepted_frame i s
  exact h.congr hct hid htx hrx

/-- The accepting step records nothing, or one of its two faults (R163, R348). -/
theorem accepted_faults (i : Instr) (s : State) :
    ∃ r, (r = .txbufUnwritten ∨ r = .clientBusyWrite) ∧
      ((accepted i s).faults = s.faults ∨ (accepted i s).faults = (s.raise r).faults) := by
  cases i with
  | sendFrame n =>
    refine ⟨.txbufUnwritten, .inl rfl, ?_⟩
    dsimp only [accepted]
    repeat' split
    all_goals simp
  | seqStart resume =>
    refine ⟨.clientBusyWrite, .inr rfl, ?_⟩
    dsimp only [accepted]
    repeat' split
    all_goals simp
  | readBytes n =>
    refine ⟨.clientBusyWrite, .inr rfl, .inl ?_⟩
    dsimp only [accepted]
    split <;> rfl
  | _ => exact ⟨.clientBusyWrite, .inr rfl, .inl rfl⟩

theorem accepted_nodup {s : State} (h : s.faults.Nodup) (i : Instr) :
    (accepted i s).faults.Nodup := by
  obtain ⟨r, -, e | e⟩ := accepted_faults i s <;> rw [e]
  · exact h
  · exact State.raise_nodup r s h

/-- Recording another reason does not raise RXBUF_UNWRITTEN. -/
theorem rxbufUnwritten_of_raise {r : FaultReason} {s : State} (hr : r ≠ .rxbufUnwritten)
    (h : .rxbufUnwritten ∈ (s.raise r).faults) : .rxbufUnwritten ∈ s.faults :=
  ((State.mem_raise_faults _ _ _).1 h).resolve_right hr.symm

/-- No accepting step reads a reply. -/
theorem rxbufUnwritten_of_accepted {i : Instr} {s : State}
    (h : .rxbufUnwritten ∈ (accepted i s).faults) : .rxbufUnwritten ∈ s.faults := by
  obtain ⟨r, hr, e | e⟩ := accepted_faults i s <;> rw [e] at h
  · exact h
  · exact rxbufUnwritten_of_raise (by rcases hr with rfl | rfl <;> decide) h

/-- A session that `SEQ_START` starts is at its first position, with no failure recorded (R281). -/
theorem SessionInv.started {t : State} {r : Bool} {q : Session} (hq : t.seq = q.start r)
    (hp : t.cfg.seqPresent = true) : SessionInv t := by
  refine ⟨fun _ => ⟨hp, ?_, ?_, ?_, ?_, ?_, ?_, ?_, ?_, ?_⟩, ?_, ?_, ?_, ?_, ?_, ?_⟩ <;>
    cases r <;>
    simp [hq, Session.start, SeqStep.during, awaitedOk]

/-- A client's request to an idle block without a session keeps the Sequencer's part. -/
theorem SessionInv.accepted {s : State} (h : SessionInv s) (hb : s.seq.sbusy = false) (i : Instr) :
    SessionInv (accepted i s) := by
  by_cases hi : (∃ r, i = .seqStart r) ∧ s.cfg.seqPresent = true
  · obtain ⟨⟨r, rfl⟩, hp⟩ := hi
    have e : Machine.accepted (.seqStart r) s =
        ((s.latchRequest (.seqStart r)).startSession r).finish .ok := by
      simp [Machine.accepted, hb, hp]
    rw [e]
    exact .started (r := r) (q := s.seq) rfl hp
  · refine h.free hb ?_
    by_cases hr : ∃ r, i = .seqStart r
    · obtain ⟨r, rfl⟩ := hr
      have hp : s.cfg.seqPresent = false := by simpa using hi
      simp [Machine.accepted, hb, hp]
    · exact (accepted_only i s).2.2.1 fun r e => hr ⟨r, e⟩

theorem State.Inv.accepted {s : State} (h : s.Inv) (hc : s.cfg.cmdAttempts ≠ 0)
    (hb : s.seq.sbusy = false) (i : Instr) : (accepted i s).Inv :=
  ⟨h.arrays.accepted i, h.engine.accepted hc i, h.session.accepted hb i,
    accepted_nodup h.faults_nodup i⟩

theorem State.Inv.raise {s : State} (h : s.Inv) (r : FaultReason) : (s.raise r).Inv :=
  h.congr (State.raise_seq r s) (State.raise_cfg r s) (State.raise_link r s)
    (State.raise_nodup r s h.faults_nodup)

/-! ### A client's access and the reset event keep the invariant -/

/-- `TXBUF` is free while the engine is idle. -/
theorem LinkInv.withTxbuf {s : State} (h : LinkInv s) (hi : s.link.lstate = .idle) (m : Memory) :
    LinkInv { s with link := { s.link with txbuf := m } } :=
  ⟨h.ackout_none, by simp [hi], by simp [hi], by simp [hi], h.rxcnt_le, h.rxbuf_held, h.read_done⟩

theorem ArraysInv.withTxbuf {s : State} (h : ArraysInv s) {m : Memory} (hw : m.wf)
    (hs : m.within Arr.txbuf.size) : ArraysInv { s with link := { s.link with txbuf := m } } :=
  ⟨hw, h.rxbuf_wf, h.ct_wf, h.ident_wf, hs, h.rxbuf_within, h.ct_within, h.ident_within⟩

theorem LinkInv.setBudget {s : State} (h : LinkInv s) (k : Word) : LinkInv (s.setBudget k) :=
  ⟨h.ackout_none, h.sending, h.txptr_lt, h.reading, h.rxcnt_le, h.rxbuf_held, h.read_done⟩

theorem PortMove.inv {s t : State} (m : PortMove s t) (h : s.Inv) (hc : s.cfg.cmdAttempts ≠ 0) :
    t.Inv := by
  cases m with
  | fault r => exact h.raise r
  | reply v => exact h.congr rfl rfl rfl h.faults_nodup
  | request i hi hb => exact h.accepted hc hb i
  | reserved v hi hb =>
    exact ⟨h.arrays.congr rfl rfl rfl rfl, h.engine.badRequest v, h.session.congr rfl rfl rfl,
      h.faults_nodup⟩
  | budget v hi hb =>
    exact ⟨h.arrays.congr rfl rfl rfl rfl, h.engine.setBudget v, h.session.congr rfl rfl rfl,
      h.faults_nodup⟩
  | txbuf i b hi hb hin =>
    exact ⟨h.arrays.withTxbuf (Memory.wf_write h.arrays.txbuf_wf i b)
      (Memory.within_write h.arrays.txbuf_within hin b), h.engine.withTxbuf hi _,
      h.session.congr rfl rfl rfl, h.faults_nodup⟩

/-- The block's registers and internal state as R67 gives them meet the invariant. -/
theorem inv_of_reset {t : State} (hl : t.link = Link.reset) (hq : t.seq = Session.reset)
    (hf : t.faults.Nodup) : t.Inv where
  arrays := by constructor <;> simp [hl, hq, Link.reset, Session.reset]
  engine := by constructor <;> simp [hl, Link.reset, State.lastWasRead]
  session := by constructor <;> simp [hq, Session.reset]
  faults_nodup := hf

/-- Settles O32: every clause reads the reset values of R67. -/
theorem resetSatisfiesTheInvariant : Obligations.ResetSatisfiesTheInvariant :=
  inv_of_reset rfl rfl List.nodup_nil

end Sys2Proof.Machine

/-! ### The Sequencer keeps the invariant -/

namespace Sys2Proof.Machine

/-! #### The Command Table's bits and bytes -/

/-- An element that has a value keeps one over a write. -/
theorem Memory.isSome_read_writeList {m : Memory} {k : Nat} (h : (m.read k).isSome) (a : Nat)
    (bs : List Byte) : ((m.writeList a bs).read k).isSome := by
  rw [Memory.read_writeList]
  split
  · rename_i hk
    rw [List.getElem?_eq_getElem (by omega)]
    rfl
  · exact h

/-- Every element written has a value. -/
theorem Memory.isSome_read_written (m : Memory) {a k : Nat} {bs : List Byte} (h1 : a ≤ k)
    (h2 : k < a + bs.length) : ((m.writeList a bs).read k).isSome := by
  rw [Memory.read_writeList, if_pos ⟨h1, h2⟩, List.getElem?_eq_getElem (by omega)]
  rfl

/-- `CT_VALID` of a table of `n` opcodes: bits 0 to n + 1 (R292). -/
theorem ctValid_bits (n i : Nat) :
    (BitVec.ofNat 16 (2 ^ (n + 2) - 1)).getLsbD i = decide (i < 16 ∧ i < n + 2) := by
  rw [BitVec.getLsbD_ofNat, Nat.testBit_two_pow_sub_one, Bool.decide_and]

/-! #### What the Sequencer's reads find -/

theorem withCt_filled {i : Nat} {s : State} {op : Byte} (hv : s.seq.ctValid.getLsbD i = true)
    (hop : s.seq.ct.read i = some op) (k : Byte → Host.Outcome State Fault Refusal) :
    withCt i s k = k op := by
  simp [withCt, State.ctEntry, hv, hop]

theorem withCt_unfilled {i : Nat} {s : State} (hv : s.seq.ctValid.getLsbD i = false)
    (k : Byte → Host.Outcome State Fault Refusal) : withCt i s k = .next (s.raise .ctUnfilled) := by
  simp [withCt, State.ctEntry, hv]

theorem withReply_found {n : Nat} {s : State} {bs : List Byte}
    (h : s.link.rxbuf.readRange 0 n = some bs) (k : List Byte → Host.Outcome State Fault Refusal) :
    withReply n s k = k bs := by
  simp [withReply, h]

theorem withCount_found {s : State} {n : Byte} (h : s.seq.ct.read 0 = some n)
    (k : Nat → Host.Outcome State Fault Refusal) : withCount s k = k n.toNat := by
  simp [withCount, h]

/-- A read that finished with `OK` left every byte it was asked for in `RXBUF`. -/
theorem LinkInv.reply_held {s : State} (h : LinkInv s) (hi : s.link.lstate = .idle)
    (hok : s.resultOk = true) (hr : s.lastWasRead = true) :
    readingOk s ∧ ∃ bs, s.link.rxbuf.readRange 0 s.link.rxn = some bs := by
  obtain ⟨hread, hcnt⟩ := h.read_done hi (by simpa [State.resultOk] using hok) hr
  refine ⟨hread, Option.isSome_iff_exists.1 (Memory.readRange_isSome.2 fun i hin => ?_)⟩
  rw [Nat.zero_add]
  exact h.rxbuf_held i (hcnt ▸ hin)

theorem LinkInv.byte_held {s : State} (h : LinkInv s) (hi : s.link.lstate = .idle)
    (hok : s.resultOk = true) (ho : s.link.opr = some .readByte) :
    ∃ bs, s.link.rxbuf.readRange 0 1 = some bs := by
  obtain ⟨hread, hbs⟩ := h.reply_held hi hok (by simp [State.lastWasRead, ho])
  have hn : s.link.rxn = 1 := by simpa [readingOk, ho] using hread
  exact hn ▸ hbs

theorem LinkInv.bytes_held {s : State} {n : Nat} (h : LinkInv s) (hi : s.link.lstate = .idle)
    (hok : s.resultOk = true) (hlt : n < 512)
    (ho : s.link.opr = some (.readBytes (BitVec.ofNat 9 n))) :
    ∃ bs, s.link.rxbuf.readRange 0 n = some bs := by
  obtain ⟨hread, hbs⟩ := h.reply_held hi hok (by simp [State.lastWasRead, ho])
  have hn : s.link.rxn = n := by
    simp only [readingOk, ho, BitVec.toNat_ofNat] at hread
    omega
  exact hn ▸ hbs

/-! #### The calls a procedure issues -/

/-- The length of a frame or a read is one that its operation takes (R111). -/
def LinkCall.Fits : LinkCall → Prop
  | .frame p => 1 ≤ p.length ∧ p.length ≤ Config.maxFrame
  | .readn n => 1 ≤ n ∧ n ≤ Config.maxRead
  | .probe | .cmd _ | .wait _ | .read1 | .flush | .parity => True

theorem lenField_toNat {n : Nat} (h : n < 512) : (lenField n).toNat = n := by
  rw [lenField_eq h, BitVec.toNat_ofNat, Nat.mod_eq_of_lt h]

/-- The Sequencer's frame finds in `TXBUF` what it has just written there. -/
theorem txPayload_fillTxbuf (p : List Byte) (s : State) :
    (s.fillTxbuf p).txPayload p.length = some p := by
  refine txPayload_eq_some.2 ⟨rfl, fun i hi => ?_⟩
  simp [Memory.read_writeList, hi]

/-- A call whose length is in range is taken by the idle engine. -/
theorem LinkCall.Fits.opr {call : LinkCall} (hf : call.Fits) (s : State) :
    (accepted call.request (call.prepare s)).link.opr = some call.request := by
  cases call with
  | frame p =>
    obtain ⟨h1, h2⟩ := hf
    have hn : (lenField p.length).toNat = p.length :=
      lenField_toNat (Nat.lt_of_le_of_lt h2 (by decide))
    have hok : Instr.frameLenOk (lenField p.length) := by
      rw [Instr.frameLenOk, hn]
      exact ⟨h1, h2⟩
    simp only [request, prepare, accepted, if_pos hok, hn, txPayload_fillTxbuf]
    rfl
  | readn n =>
    obtain ⟨h1, h2⟩ := hf
    have hn : (lenField n).toNat = n := lenField_toNat (Nat.lt_of_le_of_lt h2 (by decide))
    have hok : Instr.readLenOk (lenField n) := by
      rw [Instr.readLenOk, hn]
      exact ⟨h1, h2⟩
    simp only [request, prepare, accepted, if_pos hok]
    rfl
  | _ => rfl

theorem LinkCall.request_ne_seqStart (call : LinkCall) (r : Bool) : call.request ≠ .seqStart r := by
  cases call <;> rintro ⟨⟩

theorem LinkInv.prepared {s : State} (h : LinkInv s) (hi : s.link.lstate = .idle)
    (call : LinkCall) : LinkInv (call.prepare s) := by
  cases call with
  | frame p => exact h.withTxbuf hi _
  | wait k => exact h.setBudget k
  | _ => exact h

theorem ArraysInv.prepared {s : State} (h : ArraysInv s) {call : LinkCall} (hf : call.Fits) :
    ArraysInv (call.prepare s) := by
  cases call with
  | frame p =>
    exact h.withTxbuf (Memory.wf_writeList h.txbuf_wf 0 p)
      (Memory.within_writeList h.txbuf_within 0 p (by rw [Nat.zero_add]; exact hf.2))
  | _ => exact h.congr rfl rfl rfl rfl

@[simp] theorem LinkCall.prepare_cfg (call : LinkCall) (s : State) :
    (call.prepare s).cfg = s.cfg := by cases call <;> rfl

@[simp] theorem LinkCall.prepare_seq (call : LinkCall) (s : State) :
    (call.prepare s).seq = s.seq := by cases call <;> rfl

@[simp] theorem LinkCall.prepare_faults (call : LinkCall) (s : State) :
    (call.prepare s).faults = s.faults := by cases call <;> rfl

@[simp] theorem LinkCall.prepare_lstate (call : LinkCall) (s : State) :
    (call.prepare s).link.lstate = s.link.lstate := by cases call <;> rfl

/-- The state a call leaves: its writes made and its request taken by the idle engine (R282). -/
def State.issued (k : Nat) (call : LinkCall) (s : State) : State :=
  accepted call.request (call.prepare (s.setSub k))

theorem callAt_idle {s : State} (hi : s.link.lstate = .idle) (k : Nat) (call : LinkCall) :
    callAt k call s = .next (s.issued k call) :=
  exec_idle (by rw [LinkCall.prepare_lstate]; exact hi) _

@[simp] theorem State.issued_cfg (k : Nat) (call : LinkCall) (s : State) :
    (s.issued k call).cfg = s.cfg := by
  unfold State.issued
  rw [(accepted_frame _ _).1, LinkCall.prepare_cfg]
  rfl

@[simp] theorem State.issued_seq (k : Nat) (call : LinkCall) (s : State) :
    (s.issued k call).seq = { s.seq with sub := k } := by
  unfold State.issued
  rw [(accepted_only _ _).2.2.1 call.request_ne_seqStart, LinkCall.prepare_seq]
  rfl

theorem LinkInv.issued {s : State} (h : LinkInv s) (hi : s.link.lstate = .idle)
    (hc : s.cfg.cmdAttempts ≠ 0) (k : Nat) (call : LinkCall) : LinkInv (s.issued k call) := by
  have hk : LinkInv (s.setSub k) := h.congr rfl rfl
  exact (hk.prepared hi call).accepted (by rw [LinkCall.prepare_cfg]; exact hc) _

theorem ArraysInv.issued {s : State} (h : ArraysInv s) (k : Nat) {call : LinkCall}
    (hf : call.Fits) : ArraysInv (s.issued k call) := by
  have hk : ArraysInv (s.setSub k) := h.congr rfl rfl rfl rfl
  exact (hk.prepared hf).accepted _

theorem issued_nodup {s : State} (h : s.faults.Nodup) (k : Nat) (call : LinkCall) :
    (s.issued k call).faults.Nodup :=
  accepted_nodup (by rw [LinkCall.prepare_faults]; exact h) _

/-- No call reads a reply. -/
theorem rxbufUnwritten_of_issued {k : Nat} {call : LinkCall} {s : State}
    (h : .rxbufUnwritten ∈ (s.issued k call).faults) : .rxbufUnwritten ∈ s.faults := by
  have hp := rxbufUnwritten_of_accepted h
  rwa [LinkCall.prepare_faults] at hp

/-- The Sequencer is the agent that moves: the engine is idle and a session runs (R280). -/
structure SeqEnabled (s : State) : Prop where
  inv : s.Inv
  idle : s.link.lstate = .idle
  run : s.seq.sbusy = true
  attempts : s.cfg.cmdAttempts ≠ 0

/-- A move that keeps the invariant and finds every reply it reads. -/
structure Keeps (s t : State) : Prop where
  inv : t.Inv
  replies : .rxbufUnwritten ∈ t.faults → .rxbufUnwritten ∈ s.faults

theorem Keeps.raise {s t : State} (k : Keeps s t) {r : FaultReason} (hr : r ≠ .rxbufUnwritten) :
    Keeps s (t.raise r) :=
  ⟨k.inv.raise r, fun hm => k.replies (rxbufUnwritten_of_raise hr hm)⟩

section
variable {s t : State} (h : SeqEnabled s)
include h

theorem SeqEnabled.running : RunningInv s := h.inv.session.running h.run

/-- A move of the session alone. -/
theorem SeqEnabled.moved (hl : t.link = s.link) (hc : t.seq.ct = s.seq.ct)
    (hd : t.seq.ident = s.seq.ident) (hg : t.cfg = s.cfg) (hf : t.faults = s.faults)
    (hs : SessionInv t) : Keeps s t :=
  ⟨⟨h.inv.arrays.congr hc hd (by rw [hl]) (by rw [hl]), h.inv.engine.congr hl hg, hs,
    hf ▸ h.inv.faults_nodup⟩, fun hm => hf ▸ hm⟩

theorem SeqEnabled.raised {r : FaultReason} (hr : r ≠ .rxbufUnwritten) : Keeps s (s.raise r) :=
  Keeps.raise ⟨h.inv, id⟩ hr

/-- A call issued by a procedure that has changed no more of the session than its tables. -/
theorem SeqEnabled.called {q : Session} {k : Nat} {call : LinkCall}
    (e : callAt k call { s with seq := q } = .next t)
    (hq : q = { s.seq with ct := q.ct, ctValid := q.ctValid, ident := q.ident, idLen := q.idLen })
    (ha : ArraysInv { s with seq := q })
    (hheld : ∀ i, q.ctValid.getLsbD i = true → (q.ct.read i).isSome)
    (hfit : call.Fits) (hk : k ≤ s.seq.step.lastSub)
    (hpage : s.seq.step = .program → s.seq.latch.isSome)
    (hgo : s.seq.step = .go → s.seq.startValid = true)
    (haw : ∀ u : State, u.cfg = s.cfg → u.seq = { q with sub := k } →
      u.link.opr = some call.request → awaitedOk u) : Keeps s t := by
  rw [callAt_idle (s := { s with seq := q }) h.idle] at e
  cases e
  have hlink : LinkInv { s with seq := q } := h.inv.engine.congr rfl rfl
  refine ⟨⟨ha.issued k hfit, hlink.issued h.idle h.attempts k call, ?_,
    issued_nodup (s := { s with seq := q }) h.inv.faults_nodup k call⟩, rxbufUnwritten_of_issued⟩
  refine h.inv.session.stays h.run (State.issued_cfg ..) ?_ ?_
    (haw _ (State.issued_cfg ..) (State.issued_seq ..) (hfit.opr _)) ?_ ?_ ?_ ?_ <;>
    rw [State.issued_seq]
  · rw [hq]
  · exact hk
  · intro hs _
    rw [hq]
    exact hpage hs
  · intro hs _
    rw [hq]
    exact hgo hs
  · rw [hq]
    exact h.inv.session.page_len
  · exact hheld

end

end Sys2Proof.Machine

namespace Sys2Proof.Machine

/-- Outside `IDENTIFY` only the last position of `FLASH_SIZE` takes a reply (R294). -/
theorem awaitedOk_of_step {s : State} (hid : s.seq.step ≠ .identify)
    (hfl : s.seq.step = .flashSize → s.seq.sub = 4 → s.link.opr = some (.readBytes 2)) :
    awaitedOk s := by
  unfold awaitedOk
  split
  case h_6 hs hsub => exact hfl hs hsub
  case h_7 => trivial
  all_goals exact absurd ‹_› hid

/-- A position before the first call takes no reply. -/
theorem awaitedOk_of_first {s : State} (h0 : s.seq.sub = 0) : awaitedOk s := by
  unfold awaitedOk
  rw [h0]
  cases s.seq.step <;> trivial

/-! #### The ends of an attempt -/

section
variable {s t : State} (h : SeqEnabled s)
include h

/-- A session that fails for good is at one of its three outcomes (R288, R305). -/
theorem SeqEnabled.failed {st : FailStep} (hst : st ≠ .none) (hl : t.link = s.link)
    (hg : t.cfg = s.cfg) (hf : t.faults = s.faults)
    (hq : t.seq = { s.seq with
      sstate := .failed, failStep := st, failResult := t.seq.failResult, failAddr := t.seq.failAddr
      sdone := true, sbusy := false, step := .done, tries := t.seq.tries
      restarts := t.seq.restarts, probes := t.seq.probes }) : Keeps s t := by
  refine h.moved hl (by rw [hq]) (by rw [hq]) hg hf
    (.ends ?_ ?_ ?_ (.inr (.inr ⟨?_, ?_, ?_⟩)) ?_ ?_) <;> rw [hq]
  · exact h.running.no_go
  · exact hst
  · exact h.inv.session.page_len
  · exact h.inv.session.ct_held

/-- The step is redone, or probed again: a position at which no reply is awaited. -/
theorem SeqEnabled.redone {k : Nat} (hl : t.link = s.link) (hg : t.cfg = s.cfg)
    (hf : t.faults = s.faults)
    (hq : t.seq = { s.seq with sub := k, tries := t.seq.tries, probes := t.seq.probes })
    (hk : k ≤ s.seq.step.lastSub) (h0 : s.seq.step ≠ .probe → k = 0) : Keeps s t := by
  have hstep : t.seq.step = s.seq.step := by rw [hq]
  have hsub : t.seq.sub = k := by rw [hq]
  have first : s.seq.step ≠ .probe → t.seq.sub = 0 := fun hp => hsub.trans (h0 hp)
  refine h.moved hl (by rw [hq]) (by rw [hq]) hg hf
    (h.inv.session.stays h.run hg ?_ (hsub ▸ hk) ?_ ?_ ?_ ?_ ?_)
  · rw [hq]
  · by_cases hp : s.seq.step = .probe
    · exact awaitedOk_of_step (by simp [hstep, hp]) (by simp [hstep, hp])
    · exact awaitedOk_of_first (first hp)
  · exact fun hs hne => absurd (first (by simp [hs])) hne
  · exact fun hs hne => absurd (first (by simp [hs])) hne
  · rw [hq]
    exact h.inv.session.page_len
  · rw [hq]
    exact h.inv.session.ct_held

theorem SeqEnabled.stepFailed {st : FailStep} (hst : st ≠ .none) (a : Word) :
    Keeps s (s.stepFail st a) := by
  obtain ⟨w, n, e | e⟩ := State.stepFail_outcome st a s <;> rw [e]
  · exact h.redone (k := 0) rfl rfl rfl rfl (Nat.zero_le _) fun _ => rfl
  · exact h.failed hst rfl rfl rfl rfl

theorem SeqEnabled.probeFailed (hp : s.seq.step = .probe) : Keeps s s.probeFailed := by
  obtain e | e := State.probeFailed_outcome s <;> rw [e]
  · exact h.redone (k := 1) rfl rfl rfl rfl (by rw [hp]; decide) (absurd hp)
  · exact h.failed (st := .probe) (by decide) rfl rfl rfl rfl

/-- Another step starts in its own `SSTATE` (R284). -/
theorem SeqEnabled.started {st : SeqStep} {x : SessionState} (hl : t.link = s.link)
    (hg : t.cfg = s.cfg) (hf : t.faults = s.faults)
    (hq : t.seq = { s.seq with
      step := st, sub := 0, sstate := x, tries := t.seq.tries, probes := t.seq.probes
      restarts := t.seq.restarts, resume := t.seq.resume, flashKb := t.seq.flashKb
      fsizeValid := t.seq.fsizeValid, ctValid := t.seq.ctValid, idLen := t.seq.idLen })
    (hst : st ≠ .none ∧ st ≠ .done) (hx : x = st.during)
    (hv : ∀ i, t.seq.ctValid.getLsbD i = true → s.seq.ctValid.getLsbD i = true) : Keeps s t := by
  refine h.moved hl (by rw [hq]) (by rw [hq]) hg hf
    (h.inv.session.starts h.run hg ?_ ?_ ?_ ?_ ?_ ?_ ?_ ?_ fun i hi => ?_)
  · rw [hq]; exact hst
  · rw [hq]; exact hx
  · rw [hq]; exact h.run
  · rw [hq]
  · rw [hq]; exact ⟨rfl, rfl, rfl⟩
  · rw [hq]
  · rw [hq]
  · rw [hq]; exact h.inv.session.page_len
  · have := h.inv.session.ct_held i (hv i hi)
    rw [hq]; exact this

theorem SeqEnabled.restarted : Keeps s s.restart := by
  obtain ⟨w, n, e | e⟩ := State.restart_outcome s <;> rw [e]
  · exact h.started (st := .probe) (x := .disconnected) rfl rfl rfl rfl (by decide) rfl
      (fun i hi => by simp at hi)
  · exact h.failed (st := .restartLimit) (by decide) rfl rfl rfl rfl

/-! #### A step that runs a transaction -/

/-- A call of a transaction that changes no more of the session than its position. -/
theorem SeqEnabled.transactionCall {k : Nat} {call : LinkCall} (e : callAt k call s = .next t)
    (hfit : call.Fits) (hk : k ≤ s.seq.step.lastSub)
    (hpage : s.seq.step = .program → s.seq.latch.isSome)
    (hgo : s.seq.step = .go → s.seq.startValid = true) (hid : s.seq.step ≠ .identify)
    (hfl : s.seq.step = .flashSize → k = 4 → call = .readn 2) : Keeps s t := by
  refine h.called (q := s.seq) e rfl h.inv.arrays h.inv.session.ct_held hfit hk hpage hgo
    fun u _ hq ho => ?_
  refine awaitedOk_of_step (by rw [hq]; exact hid) fun hs hsub => ?_
  rw [hq] at hs hsub
  rw [ho, hfl hs hsub]
  rfl

/-- One move of a transaction whose calls are as many as the step's positions. -/
theorem SeqEnabled.transaction {tr : List LinkCall} {a b : State}
    (e : runTransaction tr s a b = .next t)
    (hlen : tr.length = s.seq.step.lastSub) (hfits : ∀ c ∈ tr, c.Fits)
    (hpage : s.seq.step = .program → s.seq.latch.isSome)
    (hgo : s.seq.step = .go → s.seq.startValid = true) (hid : s.seq.step ≠ .identify)
    (hfl : s.seq.step ≠ .flashSize) (ha : Keeps s a) (hb : Keeps s b) :
    Keeps s t := by
  obtain ⟨c, hc, -, e⟩ | ⟨-, -, -, rfl⟩ | ⟨-, -, rfl⟩ := runTransaction_next e
  · obtain ⟨hlt, -⟩ := List.getElem?_eq_some_iff.1 hc
    exact h.transactionCall e (hfits c (List.mem_of_getElem? hc)) (hlen ▸ hlt) hpage hgo hid
      fun hs => absurd hs hfl
  · exact ha
  · exact hb

end

end Sys2Proof.Machine

namespace Sys2Proof.Machine

/-! #### Step IDENTIFY -/

theorem ArraysInv.storeCt {s : State} (h : ArraysInv s) {i : Nat} {bs : List Byte}
    (hn : i + bs.length ≤ Arr.ct.size) : ArraysInv (s.storeCt i bs) :=
  ⟨h.txbuf_wf, h.rxbuf_wf, Memory.wf_writeList h.ct_wf i bs, h.ident_wf, h.txbuf_within,
    h.rxbuf_within, Memory.within_writeList h.ct_within i bs hn, h.ident_within⟩

theorem ArraysInv.storeId {s : State} (h : ArraysInv s) {bs : List Byte}
    (hn : bs.length ≤ Arr.ident.size) : ArraysInv (s.storeId bs) :=
  ⟨h.txbuf_wf, h.rxbuf_wf, h.ct_wf, Memory.wf_writeList h.ident_wf 0 bs, h.txbuf_within,
    h.rxbuf_within, h.ct_within,
    Memory.within_writeList h.ident_within 0 bs (by rw [Nat.zero_add]; exact hn)⟩

/-- The entries of a complete table have values. -/
theorem held_of_complete {m : Memory} {n : Nat} (hm : ∀ i < n + 2, (m.read i).isSome) (i : Nat)
    (hi : (BitVec.ofNat 16 (2 ^ (n + 2) - 1)).getLsbD i = true) : (m.read i).isSome := by
  rw [ctValid_bits] at hi
  exact hm i (of_decide_eq_true hi).2

section
variable {s t : State} (h : SeqEnabled s) (hst : s.seq.step = .identify)
include h hst

/-- A call of step `IDENTIFY`, what the step has stored before it and what the call awaits. -/
theorem SeqEnabled.identifyCall {q : Session} {k : Nat} {call : LinkCall}
    (e : callAt k call { s with seq := q } = .next t)
    (hq : q = { s.seq with ct := q.ct, ctValid := q.ctValid, ident := q.ident, idLen := q.idLen })
    (ha : ArraysInv { s with seq := q })
    (hheld : ∀ i, q.ctValid.getLsbD i = true → (q.ct.read i).isSome) (hfit : call.Fits)
    (hk : k ≤ 9)
    (haw : ∀ u : State, u.cfg = s.cfg → u.seq.step = .identify → u.seq.sub = k →
      u.seq.ct = q.ct → u.seq.idLen = q.idLen → u.link.opr = some call.request → awaitedOk u) :
    Keeps s t := by
  refine h.called e hq ha hheld hfit (by rw [hst]; exact hk) (by simp [hst]) (by simp [hst])
    fun u hu hs ho => ?_
  refine haw u hu ?_ (by rw [hs]) (by rw [hs]) (by rw [hs]) ho
  rw [hs, hq]
  exact hst

/-- A store at a position that awaits a single byte. -/
theorem SeqEnabled.identifyStored {q : Session}
    (hq : q = { s.seq with ct := q.ct, idLen := q.idLen })
    (ha : ArraysInv { s with seq := q })
    (hheld : ∀ i, q.ctValid.getLsbD i = true → (q.ct.read i).isSome)
    (haw : awaitedOk { s with seq := q }) : Keeps s { s with seq := q } := by
  have hsub : q.sub = s.seq.sub := by rw [hq]
  refine ⟨⟨ha, h.inv.engine.congr rfl rfl, h.inv.session.stays h.run rfl ?_ ?_ haw (by simp [hst])
    (by simp [hst]) ?_ hheld, h.inv.faults_nodup⟩, id⟩
  · rw [hq]
  · rw [hsub]
    exact h.running.sub_le
  · rw [hq]
    exact h.inv.session.page_len

theorem SeqEnabled.identifyCount_keeps (hsub : s.seq.sub = 2) (hok : s.resultOk = true)
    (e : identifyCount s = .next t) : Keeps s t := by
  have ho : s.link.opr = some .readByte := by
    simpa [awaitedOk, hst, hsub] using h.running.awaited
  obtain ⟨bs, hbs⟩ := h.inv.engine.byte_held h.idle hok ho
  obtain ⟨b, rfl⟩ := List.length_eq_one_iff.1 (Memory.readRange_length hbs)
  have ha : ArraysInv (s.storeCt 0 [b]) := h.inv.arrays.storeCt (Nat.le_add_left 1 15)
  have hheld : ∀ i, s.seq.ctValid.getLsbD i = true → ((s.seq.ct.writeList 0 [b]).read i).isSome :=
    fun i hi => Memory.isSome_read_writeList (h.inv.session.ct_held i hi) 0 [b]
  unfold identifyCount at e
  rw [withReply_found hbs] at e
  dsimp only at e
  split at e
  · rename_i hn
    refine h.identifyCall hst (q := (s.storeCt 0 [b]).seq) e rfl ha hheld trivial (by decide) ?_
    intro u _ hs hk hct _ ho
    simp only [awaitedOk, hs, hk, hct, ho]
    exact ⟨rfl, b, by simp [Memory.read_writeList], hn⟩
  · cases e
    refine (h.identifyStored hst (q := (s.storeCt 0 [b]).seq) rfl ha hheld ?_).raise (by decide)
    simp [awaitedOk, hst, hsub, ho]

theorem SeqEnabled.identifyVersion_keeps (hsub : s.seq.sub = 3) (hok : s.resultOk = true)
    (e : identifyVersion s = .next t) : Keeps s t := by
  obtain ⟨ho, n, hn, hle⟩ : s.link.opr = some .readByte ∧
      ∃ n, s.seq.ct.read 0 = some n ∧ n.toNat ≤ Config.ctCapacity - 2 := by
    simpa [awaitedOk, hst, hsub] using h.running.awaited
  obtain ⟨bs, hbs⟩ := h.inv.engine.byte_held h.idle hok ho
  obtain ⟨b, rfl⟩ := List.length_eq_one_iff.1 (Memory.readRange_length hbs)
  have ha : ArraysInv (s.storeCt 1 [b]) := h.inv.arrays.storeCt (Nat.le_add_left 2 14)
  have h0 : (s.seq.ct.writeList 1 [b]).read 0 = some n := by simp [Memory.read_writeList, hn]
  have h1 : ((s.seq.ct.writeList 1 [b]).read 1).isSome := by simp [Memory.read_writeList]
  have hlt : n.toNat < 512 := Nat.lt_of_le_of_lt hle (by decide)
  unfold identifyVersion at e
  rw [withReply_found hbs, withCount_found hn] at e
  split at e
  · rename_i hpos
    refine h.identifyCall hst (q := (s.storeCt 1 [b]).seq) e rfl ha
      (fun i hi => Memory.isSome_read_writeList (h.inv.session.ct_held i hi) 1 [b])
      ⟨hpos, Nat.le_trans hle (by decide)⟩ (by decide) ?_
    intro u _ hs hk hct _ ho
    simp only [awaitedOk, hs, hk, hct, ho]
    exact ⟨h1, n, h0, hpos, hle, by rw [LinkCall.request, lenField_eq hlt]⟩
  · rename_i hpos
    refine h.identifyCall hst (q := ((s.storeCt 1 [b]).setCtValid n.toNat).seq) e rfl
      (ha.congr rfl rfl rfl rfl) (held_of_complete fun i hi => ?_) trivial (by decide)
      fun u _ hs hk _ _ _ => by simp [awaitedOk, hs, hk]
    obtain rfl | rfl : i = 0 ∨ i = 1 := by omega
    · exact Option.isSome_iff_exists.2 ⟨n, h0⟩
    · exact h1

theorem SeqEnabled.identifyOpcodes_keeps (hsub : s.seq.sub = 4) (hok : s.resultOk = true)
    (e : identifyOpcodes s = .next t) : Keeps s t := by
  obtain ⟨h1, n, hn, hpos, hle, ho⟩ : (s.seq.ct.read 1).isSome ∧
      ∃ n, s.seq.ct.read 0 = some n ∧ 1 ≤ n.toNat ∧ n.toNat ≤ Config.ctCapacity - 2 ∧
        s.link.opr = some (.readBytes (BitVec.ofNat 9 n.toNat)) := by
    simpa [awaitedOk, hst, hsub] using h.running.awaited
  have hle' : n.toNat ≤ 14 := hle
  obtain ⟨bs, hbs⟩ := h.inv.engine.bytes_held h.idle hok (by omega) ho
  have hlen := Memory.readRange_length hbs
  have ha : ArraysInv (s.storeCt 2 bs) :=
    h.inv.arrays.storeCt (by show 2 + bs.length ≤ 16; omega)
  unfold identifyOpcodes at e
  rw [withCount_found hn, withReply_found hbs] at e
  refine h.identifyCall hst (q := ((s.storeCt 2 bs).setCtValid n.toNat).seq) e rfl
    (ha.congr rfl rfl rfl rfl) (held_of_complete fun i hi => ?_) trivial (by decide)
    fun u _ hs hk _ _ _ => by simp [awaitedOk, hs, hk]
  by_cases h2 : 2 ≤ i
  · exact Memory.isSome_read_written _ h2 (by omega)
  · refine Memory.isSome_read_writeList ?_ 2 bs
    obtain rfl | rfl : i = 0 ∨ i = 1 := by omega
    · exact Option.isSome_iff_exists.2 ⟨n, hn⟩
    · exact h1

theorem SeqEnabled.identifyIdLen_keeps (hsub : s.seq.sub = 7) (hok : s.resultOk = true)
    (e : identifyIdLen s = .next t) : Keeps s t := by
  have ho : s.link.opr = some .readByte := by
    simpa [awaitedOk, hst, hsub] using h.running.awaited
  obtain ⟨bs, hbs⟩ := h.inv.engine.byte_held h.idle hok ho
  have ha : ArraysInv (s.setIdLen (bs.headD 0)) := h.inv.arrays.congr rfl rfl rfl rfl
  unfold identifyIdLen at e
  rw [withReply_found hbs] at e
  dsimp only at e
  split at e
  · rename_i hm
    have hle : idBytes s.cfg (bs.headD 0) ≤ 256 := hm.2
    refine h.identifyCall hst (q := (s.setIdLen (bs.headD 0)).seq) e rfl ha h.inv.session.ct_held hm
      (by decide) ?_
    intro u hu hs hk _ hid ho
    simp only [awaitedOk, hs, hk, hid, hu, ho]
    exact ⟨hm.1, hm.2, by rw [LinkCall.request, lenField_eq (by omega)]; rfl⟩
  · cases e
    refine (h.identifyStored hst (q := (s.setIdLen (bs.headD 0)).seq) rfl ha h.inv.session.ct_held
      ?_).raise (by decide)
    simp [awaitedOk, hst, hsub, ho]

theorem SeqEnabled.identifyId_keeps (hsub : s.seq.sub = 8) (hok : s.resultOk = true)
    (e : identifyId s = .next t) : Keeps s t := by
  obtain ⟨-, hle, ho⟩ : 1 ≤ idBytes s.cfg s.seq.idLen ∧
      idBytes s.cfg s.seq.idLen ≤ Arr.ident.size ∧
        s.link.opr = some (.readBytes (BitVec.ofNat 9 (idBytes s.cfg s.seq.idLen))) := by
    simpa [awaitedOk, hst, hsub] using h.running.awaited
  obtain ⟨bs, hbs⟩ := h.inv.engine.bytes_held h.idle hok (Nat.lt_of_le_of_lt hle (by decide)) ho
  unfold identifyId at e
  rw [withReply_found hbs] at e
  exact h.identifyCall hst (q := (s.storeId bs).seq) e rfl
    (h.inv.arrays.storeId (Memory.readRange_length hbs ▸ hle)) h.inv.session.ct_held trivial
    (by decide) fun u _ hs hk _ _ _ => by simp [awaitedOk, hs, hk]

/-- A call that stores nothing before it. -/
theorem SeqEnabled.identifyPlainCall {k : Nat} {call : LinkCall} (e : callAt k call s = .next t)
    (hfit : call.Fits) (hk : k ≤ 9)
    (haw : ∀ u : State, u.seq.step = .identify → u.seq.sub = k →
      u.link.opr = some call.request → awaitedOk u) : Keeps s t :=
  h.identifyCall hst (q := s.seq) e rfl h.inv.arrays h.inv.session.ct_held hfit hk
    fun u _ hs hk _ _ ho => haw u hs hk ho

theorem SeqEnabled.identifyStep_keeps (e : identifyStep s = .next t) : Keeps s t := by
  unfold identifyStep at e
  split at e
  · exact h.identifyCall hst (q := s.clearIdentity.seq) e rfl (h.inv.arrays.congr rfl rfl rfl rfl)
      (by simp) trivial (by decide) fun u _ hs hk _ _ _ => by simp [awaitedOk, hs, hk]
  split at e
  · cases e
  split at e
  · cases e
    exact h.stepFailed (by decide) _
  rename_i hok
  have hok : s.resultOk = true := by simpa using hok
  split at e
  · exact h.identifyPlainCall hst e trivial (by decide)
      fun u hs hk ho => by simp [awaitedOk, hs, hk, ho, LinkCall.request]
  · exact h.identifyCount_keeps hst ‹_› hok e
  · exact h.identifyVersion_keeps hst ‹_› hok e
  · exact h.identifyOpcodes_keeps hst ‹_› hok e
  · obtain ⟨op, -, e⟩ | rfl := withCt_next e
    · exact h.identifyPlainCall hst e trivial (by decide)
        fun u hs hk _ => by simp [awaitedOk, hs, hk]
    · exact h.raised (by decide)
  · exact h.identifyPlainCall hst e trivial (by decide)
      fun u hs hk ho => by simp [awaitedOk, hs, hk, ho, LinkCall.request]
  · exact h.identifyIdLen_keeps hst ‹_› hok e
  · exact h.identifyId_keeps hst ‹_› hok e
  · cases e
    exact h.started (st := .flashSize) (x := .identified) rfl rfl rfl rfl (by decide) rfl
      fun _ hi => hi

end

/-! #### The other steps -/

theorem erasePayload_length (op : Byte) :
    1 ≤ (erasePayload op).length ∧ (erasePayload op).length ≤ Config.maxFrame := by
  unfold erasePayload
  split <;> decide

section
variable {s t : State} (h : SeqEnabled s)
include h

theorem SeqEnabled.probeStep_keeps (hst : s.seq.step = .probe) (e : probeStep s = .next t) :
    Keeps s t := by
  unfold probeStep at e
  split at e
  · exact h.transactionCall e trivial (by rw [hst]; decide) (by simp [hst]) (by simp [hst])
      (by simp [hst]) (by simp [hst])
  · exact h.transactionCall e trivial (by rw [hst]; decide) (by simp [hst]) (by simp [hst])
      (by simp [hst]) (by simp [hst])
  · split at e <;> cases e
    · exact h.started (st := .identify) (x := .handshaking) rfl rfl rfl rfl (by decide) rfl
        fun _ hi => hi
    · exact h.probeFailed hst
  · cases e

theorem SeqEnabled.flashSizeStep_keeps (hst : s.seq.step = .flashSize)
    (e : flashSizeStep s = .next t) : Keeps s t := by
  obtain ⟨op, -, e⟩ | rfl := withCt_next e
  · obtain ⟨-, hp⟩ | ⟨-, -, -, hp⟩ | ⟨c, hc, -, hp⟩ | ⟨hlen, hok, hp⟩ :=
      progress_cases (ispReadMem op Config.flashSizeAddr 2) s.seq.sub s.resultOk <;>
      simp only [hp] at e
    · cases e
    · cases e
      unfold State.flashSizeFailed
      split
      · have hx : s.seq.sstate = .identified := by
          rw [h.running.sstate_during, hst]
          rfl
        exact h.started (st := .unprotect) (x := .identified) rfl rfl rfl (by rw [← hx]; rfl)
          (by decide) rfl fun _ hi => hi
      · exact h.stepFailed (by decide) _
    · have hlt : s.seq.sub < 4 := (List.getElem?_eq_some_iff.1 hc).1
      have hfits : ∀ c ∈ ispReadMem op Config.flashSizeAddr 2, c.Fits := by
        simp [ispReadMem, LinkCall.Fits, encAddr, Config.maxFrame, Config.maxRead]
      refine h.transactionCall e (hfits c (List.mem_of_getElem? hc)) (by rw [hst]; exact hlt)
        (by simp [hst]) (by simp [hst]) (by simp [hst]) fun _ hk => ?_
      rw [Nat.succ.inj hk] at hc
      exact (Option.some.inj hc).symm
    · have hsub : s.seq.sub = 4 := hlen
      have ho : s.link.opr = some (.readBytes 2) := by
        simpa [awaitedOk, hst, hsub] using h.running.awaited
      obtain ⟨bs, hbs⟩ := h.inv.engine.bytes_held (n := 2) h.idle
        (hok.resolve_left (by omega)) (by decide) ho
      rw [withReply_found hbs] at e
      cases e
      exact h.started (st := .erase) (x := .flashSizeKnown) rfl rfl rfl rfl (by decide) rfl
        fun _ hi => hi
  · exact h.raised (by decide)

theorem SeqEnabled.unprotectStep_keeps (hst : s.seq.step = .unprotect)
    (e : unprotectStep s = .next t) : Keeps s t := by
  obtain ⟨op, -, e⟩ | rfl := withCt_next e
  · exact h.transaction e (by rw [hst]; rfl) (by simp [ispRdUnp, LinkCall.Fits]) (by simp [hst])
      (by simp [hst]) (by simp [hst]) (by simp [hst]) (h.stepFailed (by decide) _) h.restarted
  · exact h.raised (by decide)

theorem SeqEnabled.eraseStep_keeps (hst : s.seq.step = .erase) (e : eraseStep s = .next t) :
    Keeps s t := by
  obtain ⟨op, -, e⟩ | rfl := withCt_next e
  · refine h.transaction e (by rw [hst]; rfl) ?_ (by simp [hst]) (by simp [hst]) (by simp [hst])
      (by simp [hst]) (h.stepFailed (by decide) _) ?_
    · simpa [ispErase, LinkCall.Fits] using erasePayload_length op
    · exact h.started (st := .program) (x := .erased) rfl rfl rfl rfl (by decide) rfl fun _ hi => hi
  · exact h.raised (by decide)

/-- The page latch holds what it may, and the session is before the first call of a page. -/
theorem SeqEnabled.programMoved {q : Session} {src : List PageItem}
    (hq : q = { s.seq with
      sub := 0, tries := q.tries, latch := q.latch, startAddr := q.startAddr
      startValid := q.startValid })
    (hp : ∀ p ∈ q.latch, 1 ≤ p.data.length ∧ p.data.length ≤ Config.pageMax) :
    Keeps s { s with seq := q, source := src } := by
  have h0 : q.sub = 0 := by rw [hq]
  refine h.moved rfl (by show q.ct = _; rw [hq]) (by show q.ident = _; rw [hq]) rfl rfl
    (h.inv.session.stays h.run rfl ?_ ?_ (awaitedOk_of_first h0) (fun _ hne => absurd h0 hne)
      (fun _ hne => absurd h0 hne) hp ?_)
  · show q = _
    rw [hq]
  · rw [h0]
    exact Nat.zero_le _
  · rw [hq]
    exact h.inv.session.ct_held

theorem SeqEnabled.pullStep_keeps (h0 : s.seq.sub = 0)
    (e : pullStep s = .next t) : Keeps s t := by
  unfold pullStep at e
  split at e
  · cases e
    exact ⟨h.inv, id⟩
  · split at e <;> cases e
    · rename_i hd
      refine h.programMoved (by rw [← h0]) fun p hp => ?_
      cases hp
      exact hd
    · exact h.raised (by decide)
  · cases e
    exact h.programMoved (by rw [← h0]) h.inv.session.page_len
  · cases e
    exact h.started (st := .go) (x := .programming) rfl rfl rfl rfl (by decide) rfl fun _ hi => hi
  · cases e
    exact h.failed (st := .sourceError) (by decide) rfl rfl rfl rfl

theorem SeqEnabled.programStep_keeps (hst : s.seq.step = .program)
    (e : programStep s = .next t) : Keeps s t := by
  unfold programStep at e
  split at e
  · split at e
    · rename_i h0
      exact h.pullStep_keeps h0 e
    · cases e
  · rename_i pg hpg
    obtain ⟨op, -, e⟩ | rfl := withCt_next e
    · obtain ⟨-, hlen⟩ := h.inv.session.page_len pg hpg
      refine h.transaction e (by rw [hst]; rfl) ?_ (by simp [hpg]) (by simp [hst]) (by simp [hst])
        (by simp [hst]) (h.stepFailed (by decide) _) ?_
      · simpa [ispWriteMem, LinkCall.Fits, encAddr, writeDataPayload, Config.maxFrame,
          Config.pageMax, Nat.lt_succ_iff] using hlen
      · exact h.programMoved (src := s.source) rfl (by rintro p ⟨⟩)
    · exact h.raised (by decide)

/-- A session that ends without failure: in JUMPED, or in PROGRAMMING with nothing issued (R304). -/
theorem SeqEnabled.ended (hl : t.link = s.link) (hg : t.cfg = s.cfg) (hf : t.faults = s.faults)
    (hq : t.seq = { s.seq with
      sstate := t.seq.sstate, goIssued := t.seq.goIssued, sdone := true, sbusy := false
      step := .done })
    (ho : t.seq.sstate = .jumped ∧ t.seq.goIssued = true ∨
      t.seq.sstate = .programming ∧ t.seq.goIssued = false) : Keeps s t := by
  have hnone : t.seq.failStep = .none := by
    rw [hq]
    exact h.running.no_failure.1
  refine h.moved hl (by rw [hq]) (by rw [hq]) hg hf (.ends (by rw [hq]) (by rw [hq]) (by rw [hq])
    ?_ ?_ ?_)
  · obtain ⟨h1, h2⟩ | ⟨h1, h2⟩ := ho
    · exact .inl ⟨h1, h2, hnone⟩
    · exact .inr (.inl ⟨h1, h2, hnone⟩)
  · rw [hq]
    exact h.inv.session.page_len
  · rw [hq]
    exact h.inv.session.ct_held

theorem SeqEnabled.goStep_keeps (hst : s.seq.step = .go) (e : goStep s = .next t) : Keeps s t := by
  unfold goStep at e
  split at e
  · cases e
    refine h.ended rfl rfl rfl rfl (.inr ⟨?_, h.running.no_go⟩)
    show s.seq.sstate = .programming
    rw [h.running.sstate_during, hst]
    rfl
  · rename_i hv
    obtain ⟨op, -, e⟩ | rfl := withCt_next e
    · refine h.transaction e (by rw [hst]; rfl) ?_ (by simp [hst]) (fun _ => by simpa using hv)
        (by simp [hst]) (by simp [hst]) (h.stepFailed (by decide) _) ?_
      · simp [ispGo, LinkCall.Fits, encAddr, Config.maxFrame]
      · exact h.ended rfl rfl rfl rfl (.inl ⟨rfl, rfl⟩)
    · exact h.raised (by decide)

/-- Every step of the Sequencer keeps the invariant and finds the reply it reads. -/
theorem SeqEnabled.seqStep_keeps (e : seqStep s = .next t) : Keeps s t := by
  unfold seqStep at e
  split at e
  · exact h.probeStep_keeps ‹_› e
  · exact h.identifyStep_keeps ‹_› e
  · exact h.flashSizeStep_keeps ‹_› e
  · exact h.unprotectStep_keeps ‹_› e
  · exact h.eraseStep_keeps ‹_› e
  · exact h.programStep_keeps ‹_› e
  · exact h.goStep_keeps ‹_› e
  · cases e
  · cases e

end

/-! ### Every step keeps the invariant -/

theorem legalParameters_of_step {s t : State} (h : step s = .next t) : legalParameters s.cfg := by
  unfold step at h
  split at h
  · assumption
  · cases h

theorem State.Inv.withTurns {s : State} (h : s.Inv) (ts : List Turn) :
    ({ s with turns := ts } : State).Inv := h.congr rfl rfl rfl h.faults_nodup

/-- Settles O33: by who moves; the engine, the Sequencer and the client each by its own lemma. -/
theorem everyStepKeepsTheInvariant : Obligations.EveryStepKeepsTheInvariant := by
  intro s t h e
  obtain ⟨hattempts, -⟩ := legalParameters_of_step e
  cases step_move e with
  | engine ts _ hb e => exact engineStep_inv (h.withTurns ts) e
  | sequencer ts _ hi hr e =>
    have en : SeqEnabled { s with turns := ts } := ⟨h.withTurns ts, hi, hr, hattempts⟩
    exact (en.seqStep_keeps e).inv
  | nothing ts => exact h.withTurns ts
  | device b ts => exact h.congr rfl rfl rfl h.faults_nodup
  | source it ts => exact h.congr rfl rfl rfl h.faults_nodup
  | client a ts _ e => exact (access_move e).inv (h.withTurns ts) hattempts
  | reset ts _ => exact inv_of_reset rfl rfl h.faults_nodup

end Sys2Proof.Machine

/-! ### What a run's history and status bits keep -/

namespace Sys2Proof.Machine

/-- What every move keeps: the histories and the parameters (R49, R50). -/
def HistoryKept (s t : State) : Prop :=
  (t.chan.txlog = s.chan.txlog ∨
    s.link.lstate = .tx ∧ ∃ b, s.link.txq[s.link.txptr]? = some b ∧
      t.chan.txlog = s.chan.txlog ++ [b]) ∧
  (∀ r, r ∈ s.faults → r ∈ t.faults) ∧ t.cfg = s.cfg

/-- What every move but the reset event keeps of STATUS (R37 to R39). -/
def StatusKept (s t : State) : Prop :=
  (s.link.parEven = true → t.link.parEven = true) ∧ (s.link.rv = true → t.link.rv = true) ∧
  (t.link.lastRx ≠ s.link.lastRx →
    s.link.lstate = .ackwait ∧ s.chan.rxfifo = t.link.lastRx :: t.chan.rxfifo)

theorem accepted_historyKept (i : Instr) (s : State) : HistoryKept s (accepted i s) := by
  obtain ⟨hcfg, hlog, -, -, -, -, -, -, -, -, -, hf, -⟩ := accepted_frame i s
  exact ⟨.inl hlog, hf, hcfg⟩

theorem accepted_statusKept (i : Instr) (s : State) : StatusKept s (accepted i s) := by
  obtain ⟨-, -, -, -, -, -, hlast, -, -, -, -, -, hpar, hrv⟩ := accepted_frame i s
  exact ⟨hpar, hrv, fun hne => absurd hlast hne⟩

/-- A move that leaves the channel and STATUS alone and takes no fault back. -/
theorem kept_of_frame {s t : State} (hlog : t.chan.txlog = s.chan.txlog)
    (hf : ∀ r, r ∈ s.faults → r ∈ t.faults) (hcfg : t.cfg = s.cfg)
    (hpar : t.link.parEven = s.link.parEven) (hrv : s.link.rv = true → t.link.rv = true)
    (hlast : t.link.lastRx = s.link.lastRx) : HistoryKept s t ∧ StatusKept s t :=
  ⟨⟨.inl hlog, hf, hcfg⟩, fun h => hpar ▸ h, hrv, fun hne => absurd hlast hne⟩

theorem engineStep_kept {s t : State} (h : engineStep s = .next t) :
    HistoryKept s t ∧ StatusKept s t := by
  obtain ⟨ht, -, -, hpar, hrv, -, hlog, hlast⟩ := engineStep_frame h
  have hf : t.faults = s.faults := by rw [ht]
  exact ⟨⟨hlog, fun r hr => hf ▸ hr, by rw [ht]⟩, fun hp => hpar ▸ hp, hrv, hlast.resolve_left⟩

theorem SeqMove.kept {s t : State} (m : SeqMove s t) : HistoryKept s t ∧ StatusKept s t := by
  cases m with
  | call call q _ _ =>
    have hp := LinkCall.prepare_eq call { s with seq := q }
    have hh := accepted_historyKept call.request (call.prepare { s with seq := q })
    have hs := accepted_statusKept call.request (call.prepare { s with seq := q })
    rw [hp] at hh hs ⊢
    exact ⟨hh, hs⟩
  | quiet q f n src hf => exact kept_of_frame rfl hf rfl rfl id rfl

theorem PortMove.kept {s t : State} (m : PortMove s t) : HistoryKept s t ∧ StatusKept s t := by
  cases m with
  | fault r =>
    exact kept_of_frame (by simp) (fun x hx => (State.mem_raise_faults r x s).2 (.inl hx)) (by simp)
      (by simp) (by simp) (by simp)
  | request i _ _ => exact ⟨accepted_historyKept i s, accepted_statusKept i s⟩
  | reserved v _ _ => exact kept_of_frame rfl (fun _ => id) rfl rfl (fun _ => rfl) rfl
  | _ => exact kept_of_frame rfl (fun _ => id) rfl rfl id rfl

/-- Every step keeps the histories and, but for the reset event, the status bits. -/
theorem step_kept {s t : State} (h : step s = .next t) :
    HistoryKept s t ∧ (s.turns.head? ≠ some .reset → StatusKept s t) := by
  have always : HistoryKept s t ∧ StatusKept s t →
      HistoryKept s t ∧ (s.turns.head? ≠ some .reset → StatusKept s t) :=
    fun hk => ⟨hk.1, fun _ => hk.2⟩
  cases step_move h with
  | engine ts _ _ e => exact always (engineStep_kept (s := { s with turns := ts }) e)
  | sequencer ts _ hi _ e => exact always (seqStep_move (s := { s with turns := ts }) hi e).kept
  | nothing ts => exact always (kept_of_frame rfl (fun _ => id) rfl rfl id rfl)
  | device b ts => exact always (kept_of_frame rfl (fun _ => id) rfl rfl id rfl)
  | source it ts => exact always (kept_of_frame rfl (fun _ => id) rfl rfl id rfl)
  | client a ts _ e => exact always (access_move e).kept
  | reset ts ht => exact ⟨⟨.inl rfl, fun _ => id, rfl⟩, fun hne => absurd (by rw [ht]; rfl) hne⟩

/-- Settles O36: every agent's move keeps the histories. -/
theorem historyOnlyGrows : Obligations.HistoryOnlyGrows :=
  ⟨⟨rfl, rfl⟩, fun _ _ h => (step_kept h).1⟩

/-- Settles O37: every agent's move but the reset event keeps the status bits. -/
theorem statusBitsBetweenResets : Obligations.StatusBitsBetweenResets :=
  fun _ _ h => (step_kept h).2

/-! ### Who raises RXBUF_UNWRITTEN -/

theorem request_rxbufUnwritten {v : Word} {s t : State} (h : request v s = .next t)
    (hm : .rxbufUnwritten ∈ t.faults) : .rxbufUnwritten ∈ s.faults := by
  unfold request at h
  split at h
  · rw [exec_eq] at h
    obtain ⟨-, rfl⟩ | ⟨-, rfl⟩ := whenIdle_next h
    · exact rxbufUnwritten_of_accepted hm
    · exact rxbufUnwritten_of_raise (by decide) hm
  · cases h
    exact hm

theorem regWrite_rxbufUnwritten {n : Nat} {v : Word} {s t : State} (h : regWrite n v s = .next t)
    (hm : .rxbufUnwritten ∈ t.faults) : .rxbufUnwritten ∈ s.faults := by
  unfold regWrite at h
  split at h
  · split at h
    · cases h
      exact rxbufUnwritten_of_raise (by decide) hm
    · exact request_rxbufUnwritten h hm
  · split at h <;> cases h
    · exact rxbufUnwritten_of_raise (by decide) hm
    · exact hm
  · cases h
    exact rxbufUnwritten_of_raise (by decide) hm

theorem arrRead_rxbufUnwritten {a : Arr} {i : Nat} {s : State} (ha : a ≠ .rxbuf)
    (hm : .rxbufUnwritten ∈ (arrRead a i s).faults) : .rxbufUnwritten ∈ s.faults := by
  unfold arrRead at hm
  split at hm
  · split at hm
    · exact hm
    · exact rxbufUnwritten_of_raise (by cases a <;> simp [Arr.unwritten] at ha ⊢) hm
  · exact rxbufUnwritten_of_raise (by decide) hm

/-- Of a client's accesses only a read of `RXBUF` raises its fault (R345). -/
theorem access_rxbufUnwritten {a : Access} {s t : State} (h : access a s = .next t)
    (hm : .rxbufUnwritten ∈ t.faults) :
    .rxbufUnwritten ∈ s.faults ∨ ∃ i, a = .arrRead .rxbuf i := by
  cases a with
  | regRead n =>
    cases h
    unfold regRead at hm
    split at hm
    · exact .inl hm
    · exact .inl (rxbufUnwritten_of_raise (by decide) hm)
  | regWrite n v => exact .inl (regWrite_rxbufUnwritten h hm)
  | arrRead a i =>
    cases h
    by_cases ha : a = .rxbuf
    · exact .inr ⟨i, by rw [ha]⟩
    · exact .inl (arrRead_rxbufUnwritten ha hm)
  | arrWrite a i b =>
    cases h
    unfold arrWrite at hm
    split at hm
    · split at hm
      · exact .inl (rxbufUnwritten_of_raise (by decide) hm)
      · exact .inl hm
    · exact .inl (rxbufUnwritten_of_raise (by decide) hm)

/-- The block's own move finds the reply it reads. -/
theorem advance_rxbufUnwritten {s t : State} (h : s.Inv) (hc : s.cfg.cmdAttempts ≠ 0)
    (e : advance s = .next t) (hm : .rxbufUnwritten ∈ t.faults) : .rxbufUnwritten ∈ s.faults := by
  by_cases hi : s.link.lstate = .idle
  · cases hr : s.seq.sbusy with
    | true =>
      rw [advance_of_session hi hr] at e
      exact (SeqEnabled.mk h hi hr hc).seqStep_keeps e |>.replies hm
    | false =>
      rw [advance_of_rest hi hr] at e
      cases e
      exact hm
  · rw [advance_of_busy hi] at e
    rwa [(engineStep_frame e).1] at hm

/-- What can change `FAULTS` in a step: the client's access at the head of the turns, or the
block's own move. -/
theorem step_faults {s t : State} (h : step s = .next t) :
    (∃ a rest, s.turns = .client a :: rest ∧ access a { s with turns := rest } = .next t) ∨
      (∃ ts, advance { s with turns := ts } = .next t) ∨ t.faults = s.faults := by
  have hl := legalParameters_of_step h
  cases hts : s.turns with
  | nil =>
    rw [step_of_no_turn hl hts] at h
    exact .inr (.inl ⟨s.turns, h⟩)
  | cons tn rest =>
    cases tn with
    | waitIdle =>
      by_cases hi : s.link.lstate = .idle
      · rw [step_of_wait_idle hl hts hi] at h
        cases h
        exact .inr (.inr rfl)
      · rw [step_of_wait_busy hl hts hi, ← advance_of_busy hi] at h
        exact .inr (.inl ⟨s.turns, h⟩)
    | client a => exact .inl ⟨a, rest, rfl, (step_of_turn hl hts).symm.trans h⟩
    | run => exact .inr (.inl ⟨rest, (step_of_turn hl hts).symm.trans h⟩)
    | _ =>
      rw [step_of_turn hl hts] at h
      cases h
      exact .inr (.inr rfl)

/-- Settles O59: the Sequencer finds its reply (`SeqEnabled.seqStep_keeps`), and of a client's
accesses one kind raises the fault. -/
theorem onlyClientReadsFindNoReply : Obligations.OnlyClientReadsFindNoReply := by
  intro s t h e hm
  obtain ⟨hattempts, -⟩ := legalParameters_of_step e
  obtain ⟨a, rest, hts, e⟩ | ⟨ts, e⟩ | hf := step_faults e
  · obtain hs | ⟨i, rfl⟩ := access_rxbufUnwritten e hm
    · exact .inl hs
    · exact .inr ⟨i, rest, hts⟩
  · exact .inl
      (advance_rxbufUnwritten (s := { s with turns := ts }) (h.withTurns ts) hattempts e hm)
  · exact .inl (hf ▸ hm)

end Sys2Proof.Machine

/-! ### What a client reads at the port -/

namespace Sys2Proof.Machine

/-! #### Registers -/

/-- The fields of `STATUS` do not overlap, so the word's value is their sum (R34). -/
theorem statusWord_toNat (s : State) : (statusWord s).toNat =
    s.busy.toNat + s.link.result.code.toNat * 2 ^ 1 + s.link.parEven.toNat * 2 ^ 4
      + s.link.rv.toNat * 2 ^ 5 + s.link.lastRx.toNat * 2 ^ 8
      + (s.link.rxcnt % 2 ^ 9) * 2 ^ 16 := by
  have hb := s.busy.toNat_le
  have hc := s.link.result.code.isLt
  have hp := s.link.parEven.toNat_le
  have hv := s.link.rv.toNat_le
  have hl := s.link.lastRx.isLt
  rw [statusWord, BitVec.toNat_ofNat, Nat.mod_eq_of_lt]
  omega

/-- The fields of `SEQ_STATUS` do not overlap, so the word's value is their sum (R54). -/
theorem seqStatusWord_toNat (s : State) : (seqStatusWord s).toNat =
    s.seq.sstate.code.toNat + s.seq.sbusy.toNat * 2 ^ 4 + s.seq.sdone.toNat * 2 ^ 5
      + s.seq.startValid.toNat * 2 ^ 6 + s.seq.goIssued.toNat * 2 ^ 7
      + s.seq.failStep.code.toNat * 2 ^ 8 + s.seq.failResult.code.toNat * 2 ^ 12
      + s.seq.fsizeValid.toNat * 2 ^ 15 := by
  have h1 := s.seq.sstate.code.isLt
  have h2 := s.seq.sbusy.toNat_le
  have h3 := s.seq.sdone.toNat_le
  have h4 := s.seq.startValid.toNat_le
  have h5 := s.seq.goIssued.toNat_le
  have h6 := s.seq.failStep.code.isLt
  have h7 := s.seq.failResult.code.isLt
  have h8 := s.seq.fsizeValid.toNat_le
  rw [seqStatusWord, BitVec.toNat_ofNat, Nat.mod_eq_of_lt]
  omega

/-- A read of a register that exists hands over its value. -/
theorem regRead_of_reg {s : State} {n : Nat} (r : Reg) (h : regOfNum s.cfg.seqPresent n = some r) :
    access (.regRead n) s = .next { s with portOut := s.portOut ++ [.word (r.value s)] } := by
  simp only [access, regRead, h]
  rfl

/-- Settles O40: the three reads by register number, then the fields of the sum. -/
theorem statusFields : Obligations.StatusFields := by
  intro s
  have hv := statusWord_toNat s
  have hb := s.busy.toNat_le
  have hc := s.link.result.code.isLt
  have hp := s.link.parEven.toNat_le
  have hr := s.link.rv.toNat_le
  have hl := s.link.lastRx.isLt
  have busy : s.busy.toNat = 1 ↔ s.link.lstate ≠ .idle := by
    simp [State.busy]
  refine ⟨regRead_of_reg .req rfl, regRead_of_reg .budget rfl, regRead_of_reg .status rfl, ?_, ?_,
    ?_, ?_, ?_, ?_, ?_, ?_⟩
  · rw [← busy]
    omega
  · have hcode : (statusWord s).toNat / 2 % 8 = s.link.result.code.toNat := by omega
    rw [hcode]
    cases s.link.result <;> rfl
  · rw [← Bool.toNat_eq_one]
    omega
  · rw [← Bool.toNat_eq_one]
    omega
  · omega
  · omega
  · omega
  · omega

/-- Settles O41: the eight reads by register number, then the fields of the sum. -/
theorem seqStatusFields : Obligations.SeqStatusFields := by
  intro s hq
  have hv := seqStatusWord_toNat s
  have h1 := s.seq.sstate.code.isLt
  have h2 := s.seq.sbusy.toNat_le
  have h3 := s.seq.sdone.toNat_le
  have h4 := s.seq.startValid.toNat_le
  have h5 := s.seq.goIssued.toNat_le
  have h6 := s.seq.failStep.code.isLt
  have h7 := s.seq.failResult.code.isLt
  have h8 := s.seq.fsizeValid.toNat_le
  have reads : ∀ {n : Nat} {w : Word} (r : Reg), regOfNum true n = some r → r.value s = w →
      access (.regRead n) s = .next { s with portOut := s.portOut ++ [.word w] } :=
    fun r hn hw => hw ▸ regRead_of_reg r (hq ▸ hn)
  refine ⟨reads .seqStatus rfl rfl, reads .failAddr rfl rfl,
    reads .flashKb rfl (BitVec.ofNat_toNat ..).symm, reads .startAddr rfl rfl,
    reads .ctValid rfl (BitVec.ofNat_toNat ..).symm, reads .idLen rfl (BitVec.ofNat_toNat ..).symm,
    reads .tries rfl rfl, reads .restarts rfl rfl, ?_, ?_, ?_, ?_, ?_, ?_, ?_, ?_, ?_⟩
  · have hcode : (seqStatusWord s).toNat % 16 = s.seq.sstate.code.toNat := by omega
    rw [hcode]
    cases s.seq.sstate <;> rfl
  · rw [← Bool.toNat_eq_one]
    omega
  · rw [← Bool.toNat_eq_one]
    omega
  · rw [← Bool.toNat_eq_one]
    omega
  · rw [← Bool.toNat_eq_one]
    omega
  · have hcode : (seqStatusWord s).toNat / 2 ^ 8 % 16 = s.seq.failStep.code.toNat := by omega
    rw [hcode]
    cases s.seq.failStep <;> rfl
  · have hcode : (seqStatusWord s).toNat / 2 ^ 12 % 8 = s.seq.failResult.code.toNat := by omega
    rw [hcode]
    cases s.seq.failResult <;> rfl
  · rw [← Bool.toNat_eq_one]
    omega
  · omega

/-! #### Arrays -/

/-- An element that has a value is handed over. -/
theorem arrRead_of_element {s : State} {a : Arr} {i : Nat} {b : Byte}
    (hp : a.present s.cfg.seqPresent = true) (hi : i < a.size) (h : a.element i s = some b) :
    access (.arrRead a i) s = .next { s with portOut := s.portOut ++ [.byte b] } := by
  simp only [access, arrRead, if_pos (And.intro hp hi), h]
  rfl

/-- An element without a value is the array's own fault. -/
theorem arrRead_of_unwritten {s : State} {a : Arr} {i : Nat}
    (hp : a.present s.cfg.seqPresent = true) (hi : i < a.size) (h : a.element i s = none) :
    RecordsFault a.unwritten s (access (.arrRead a i) s) := by
  simp only [access, arrRead, if_pos (And.intro hp hi), h]
  exact recordsFault_raise _ _

/-- `ID` is readable in every session state but these three (R64). -/
theorem identified_of_sstate {s : State}
    (h : s.seq.sstate ∉ [.disconnected, .handshaking, .failed]) : s.identified = true := by
  unfold State.identified
  cases hs : s.seq.sstate <;> simp_all

/-- Before the identify step completes nothing of `ID` is readable (R64). -/
theorem not_identified_of_sstate {s : State} (h : s.seq.sstate ∈ [.disconnected, .handshaking]) :
    s.identified = false := by
  unfold State.identified
  cases hs : s.seq.sstate <;> simp_all

/-- Settles O45: for each array, its element has a value or has none. -/
theorem arrayReads : Obligations.ArrayReads := by
  intro s i
  refine ⟨fun b hi hb => arrRead_of_element rfl hi hb,
    fun hi hb => arrRead_of_unwritten (a := .txbuf) rfl hi hb,
    fun b hi hlt hb => arrRead_of_element rfl hi ((if_pos hlt).trans hb),
    fun hi hle => arrRead_of_unwritten (a := .rxbuf) rfl hi (if_neg (Nat.not_lt.2 hle)),
    fun b hp hi hv hb => arrRead_of_element hp hi ((if_pos hv).trans hb),
    fun hp hi hv => arrRead_of_unwritten (a := .ct) hp hi (if_neg (by rw [hv]; decide)),
    fun b hp hi hlt hs hb =>
      arrRead_of_element hp hi ((if_pos ⟨hlt, identified_of_sstate hs⟩).trans hb),
    fun hp hi hno => arrRead_of_unwritten (a := .ident) hp hi (if_neg ?_)⟩
  rintro ⟨hlt, hid⟩
  obtain hle | hs := hno
  · exact Nat.not_lt.2 hle hlt
  · rw [not_identified_of_sstate hs] at hid
    cases hid

/-! #### Accesses that are refused whatever the state -/

theorem regOfNum_eq_none {q : Bool} {n : Nat} (h : n = 3 ∨ 12 ≤ n ∨ (4 ≤ n ∧ q = false)) :
    regOfNum q n = none := by
  obtain rfl | h | ⟨h, rfl⟩ := h
  · rfl
  · unfold regOfNum
    split <;> first | omega | rfl
  · unfold regOfNum
    split <;> first | omega | rfl

/-- Only the registers 0 and 1 can be written (R32). -/
theorem regOfNum_not_writable {q : Bool} {n : Nat} (h : 2 ≤ n) :
    regOfNum q n ≠ some .req ∧ regOfNum q n ≠ some .budget := by
  unfold regOfNum
  split <;> first | omega | (cases q <;> simp)

theorem regWrite_not_writable {s : State} {n : Nat} (v : Word) (h : 2 ≤ n) :
    access (.regWrite n v) s = .next (s.raise .badRegister) := by
  obtain ⟨h0, h1⟩ := regOfNum_not_writable (q := s.cfg.seqPresent) h
  simp only [access]
  unfold regWrite
  split
  · exact absurd ‹_› h0
  · exact absurd ‹_› h1
  · rfl

theorem arrRead_outside {s : State} {a : Arr} {i : Nat}
    (h : ¬ (a.present s.cfg.seqPresent = true ∧ i < a.size)) :
    access (.arrRead a i) s = .next (s.raise .badRegister) :=
  congrArg _ (if_neg h)

theorem arrWrite_outside {s : State} {a : Arr} {i : Nat} (b : Byte)
    (h : ¬ (a = .txbuf ∧ i < a.size)) :
    access (.arrWrite a i b) s = .next (s.raise .badRegister) :=
  congrArg _ (if_neg h)

/-- Settles O43: each kind of access falls through to `fault(BAD_REGISTER)`. -/
theorem badAccessesFault : Obligations.BadAccessesFault := by
  intro s
  refine ⟨fun n hn => ?_, fun n v hn => ?_, fun a i ha => ?_, fun a i b ha => ?_⟩
  · have e : access (.regRead n) s = .next (s.raise .badRegister) := by
      simp [access, regRead, regOfNum_eq_none hn]
    exact e ▸ recordsFault_raise _ _
  · exact regWrite_not_writable v hn ▸ recordsFault_raise _ _
  · refine arrRead_outside ?_ ▸ recordsFault_raise _ _
    rintro ⟨hp, hi⟩
    obtain ⟨rfl, hle⟩ | ⟨rfl, hle⟩ | ⟨rfl, hle⟩ | ⟨rfl, hle⟩ | ⟨rfl | rfl, hq⟩ := ha
    · exact Nat.not_lt.2 hle hi
    · exact Nat.not_lt.2 hle hi
    · exact Nat.not_lt.2 hle hi
    · exact Nat.not_lt.2 hle hi
    · exact absurd (hp.symm.trans hq) (by decide)
    · exact absurd (hp.symm.trans hq) (by decide)
  · refine arrWrite_outside b ?_ ▸ recordsFault_raise _ _
    rintro ⟨rfl, hi⟩
    obtain hne | hle := ha
    · exact hne rfl
    · exact Nat.not_lt.2 hle hi

end Sys2Proof.Machine

/-! ### Step IDENTIFY by position, and the unfilled entries -/

namespace Sys2Proof.Machine

theorem seqStep_of_identify {s : State} (h : s.seq.step = .identify) :
    seqStep s = identifyStep s := by
  simp only [seqStep, h]

/-- A new attempt of the step starts with nothing identified (R291). -/
theorem identifyStep_first {s : State} (h0 : s.seq.sub = 0) :
    identifyStep s = callAt 1 (.cmd s.cfg.getOpcode) s.clearIdentity := if_pos h0

/-! The positions of the step, the call before each finished with `OK`. -/

section
variable {s : State} (hst : s.seq.step = .identify) (hok : s.link.result = .ok)
include hst hok

theorem seqStep_identify_one (h : s.seq.sub = 1) :
    seqStep s = callAt 2 .read1 s := by
  simp [seqStep, identifyStep, State.resultOk, hst, hok, h]

theorem seqStep_identify_two (h : s.seq.sub = 2) :
    seqStep s = identifyCount s := by
  simp [seqStep, identifyStep, State.resultOk, hst, hok, h]

theorem seqStep_identify_three (h : s.seq.sub = 3) :
    seqStep s = identifyVersion s := by
  simp [seqStep, identifyStep, State.resultOk, hst, hok, h]

theorem seqStep_identify_four (h : s.seq.sub = 4) :
    seqStep s = identifyOpcodes s := by
  simp [seqStep, identifyStep, State.resultOk, hst, hok, h]

theorem seqStep_identify_five (h : s.seq.sub = 5) :
    seqStep s = withCt 4 s fun op => callAt 6 (.cmd op) s := by
  simp [seqStep, identifyStep, State.resultOk, hst, hok, h]

theorem seqStep_identify_six (h : s.seq.sub = 6) :
    seqStep s = callAt 7 .read1 s := by
  simp [seqStep, identifyStep, State.resultOk, hst, hok, h]

theorem seqStep_identify_seven (h : s.seq.sub = 7) :
    seqStep s = identifyIdLen s := by
  simp [seqStep, identifyStep, State.resultOk, hst, hok, h]

theorem seqStep_identify_eight (h : s.seq.sub = 8) :
    seqStep s = identifyId s := by
  simp [seqStep, identifyStep, State.resultOk, hst, hok, h]

theorem seqStep_identify_nine (h : s.seq.sub = 9) :
    seqStep s = .next ((s.enter .identified).startStep .flashSize) := by
  simp [seqStep, identifyStep, State.resultOk, hst, hok, h]

end

/-- A single byte has come. -/
theorem readRange_one {m : Memory} {b : Byte} (h : m.read 0 = some b) :
    m.readRange 0 1 = some [b] := by
  simp [Memory.readRange, h]

/-- The reply of a read of `n` bytes that all have values. -/
theorem exists_readRange {m : Memory} {n : Nat} (h : ∀ i < n, (m.read i).isSome) :
    ∃ bs, m.readRange 0 n = some bs ∧ bs.length = n ∧ ∀ i < n, m.read i = bs[i]? := by
  obtain ⟨bs, hbs⟩ := Option.isSome_iff_exists.1
    (Memory.readRange_isSome.2 fun i hi => (Nat.zero_add i).symm ▸ h i hi)
  obtain ⟨hlen, hread⟩ := Memory.readRange_eq_some.1 hbs
  exact ⟨bs, hbs, hlen, fun i hi => by simpa using hread i hi⟩

theorem Memory.read_writeList_inside (m : Memory) {a i : Nat} {bs : List Byte}
    (h : i < bs.length) : (m.writeList a bs).read (a + i) = bs[i]? := by
  rw [Memory.read_writeList, if_pos ⟨Nat.le_add_right .., Nat.add_lt_add_left h a⟩,
    Nat.add_sub_cancel_left]

theorem Memory.read_writeList_outside (m : Memory) {a k : Nat} {bs : List Byte}
    (h : k < a ∨ a + bs.length ≤ k) : (m.writeList a bs).read k = m.read k := by
  rw [Memory.read_writeList, if_neg (by omega)]

/-- Settles O48: the reply found at each position, then the store and the call of the position. -/
theorem getHalfOfIdentify : Obligations.GetHalfOfIdentify := by
  intro s hi hst
  refine ⟨fun h0 => ?_, fun h1 hok => ?_, fun n h2 hok hn hle => ?_, fun n v h3 hok hn hv hle => ?_,
    fun n h4 hok hn hle hheld => ?_⟩
  · rw [seqStep_of_identify hst, identifyStep_first h0]
    rfl
  · exact seqStep_identify_one hst hok h1
  · refine ⟨s.seq.ct.writeList 0 [n], Memory.read_write_same ..,
      fun k => Memory.read_write_ne _ n, ?_⟩
    rw [seqStep_identify_two hst hok h2, identifyCount, withReply_found (readRange_one hn)]
    exact if_pos hle
  · refine ⟨s.seq.ct.writeList 1 [v], Memory.read_write_same ..,
      fun k => Memory.read_write_ne _ v, ?_⟩
    rw [seqStep_identify_three hst hok h3, identifyVersion, withReply_found (readRange_one hv),
      withCount_found hn]
    refine ⟨fun hpos => ?_, fun h0 => ?_⟩
    · rw [if_pos hpos, ← lenField_eq (by omega)]
      rfl
    · rw [if_neg (by omega), h0]
      rfl
  · obtain ⟨bs, hbs, hlen, hread⟩ := exists_readRange hheld
    refine ⟨s.seq.ct.writeList 2 bs, BitVec.ofNat 16 (2 ^ (n.toNat + 2) - 1),
      fun i hin => ?_, fun k hk => ?_, fun i h16 => ?_, ?_⟩
    · rw [hread i hin, Memory.read_writeList_inside _ (hlen ▸ hin)]
    · exact Memory.read_writeList_outside _ (hlen ▸ hk)
    · rw [ctValid_bits]
      exact decide_eq_decide.2 (by omega)
    · rw [seqStep_identify_four hst hok h4, identifyOpcodes, withCount_found hn,
        withReply_found hbs]
      rfl

/-- Settles O49: the reply found at each position, then the store and the call of the position. -/
theorem getIdHalfOfIdentify : Obligations.GetIdHalfOfIdentify := by
  intro s hi hst hok
  refine ⟨fun op h5 hv hop => ?_, fun h6 => ?_, fun l h7 hl h1 hle => ?_, fun h8 hheld => ?_,
    fun h9 => ?_⟩
  · rw [seqStep_identify_five hst hok h5]
    exact withCt_filled hv hop _
  · exact seqStep_identify_six hst hok h6
  · rw [seqStep_identify_seven hst hok h7, identifyIdLen, withReply_found (readRange_one hl),
      ← lenField_eq (by omega)]
    exact if_pos ⟨h1, hle⟩
  · obtain ⟨bs, hbs, hlen, hread⟩ := exists_readRange hheld
    refine ⟨s.seq.ident.writeList 0 bs, fun i hin => ?_, fun k hk => ?_, ?_⟩
    · have hw := Memory.read_writeList_inside s.seq.ident (a := 0) (hlen ▸ hin)
      rw [Nat.zero_add] at hw
      rw [hread i hin, hw]
    · exact Memory.read_writeList_outside _ (.inr (by omega))
    · rw [seqStep_identify_eight hst hok h8]
      exact withReply_found hbs _
  · exact seqStep_identify_nine hst hok h9

/-- Settles O57: at each of the six positions the step is a read of the Command Table. -/
theorem unfilledEntryFaults : Obligations.UnfilledEntryFaults := by
  intro s hi hpos
  have fault : ∀ {i : Nat} {k : Byte → Host.Outcome State Fault Refusal},
      s.seq.ctValid.getLsbD i = false → seqStep s = withCt i s k →
      RecordsFault .ctUnfilled s (seqStep s) := by
    intro i k hv e
    rw [e, withCt_unfilled hv]
    exact recordsFault_raise _ _
  obtain ⟨hst, hsub, hok, hv⟩ | ⟨hst, -, hv⟩ | ⟨hst, -, hv⟩ | ⟨hst, -, hv⟩ | ⟨hst, -, hpage, hv⟩ |
    ⟨hst, -, hstart, hv⟩ := hpos
  · exact fault hv (seqStep_identify_five hst hok hsub)
  · exact fault hv (by simp only [seqStep, hst]; rfl)
  · exact fault hv (by simp only [seqStep, hst]; rfl)
  · exact fault hv (by simp only [seqStep, hst]; rfl)
  · obtain ⟨pg, hpg⟩ := Option.isSome_iff_exists.1 hpage
    exact fault hv (by simp only [seqStep, hst, programStep, hpg]; rfl)
  · exact fault hv (by simp only [seqStep, hst, goStep, hstart]; rfl)

end Sys2Proof.Machine

/-! ### The byte order of values (20_memory.md section 2) -/

namespace Sys2Proof.Machine

/-- The flash size is the second byte beside the first one, the second above (R84). -/
theorem flashKB_eq_append (r0 r1 : Byte) : flashKB r0 r1 = r1 ++ r0 := by
  rw [BitVec.append_def, BitVec.shiftLeftZeroExtend_eq, BitVec.setWidth'_eq, BitVec.or_comm]
  rfl

theorem lenByte_toNat {n : Nat} (h : n ≤ 256) : (lenByte n).toNat = n - 1 := by
  rw [lenByte, BitVec.toNat_ofNat, Nat.mod_eq_of_lt (by omega)]

/-- Settles O8: each byte by arithmetic on the value it is taken from. -/
theorem byteOrderOfValues : Obligations.ByteOrderOfValues := by
  refine ⟨fun a => ⟨_, _, _, _, rfl, ?_⟩, fun r0 r1 => ?_, fun n h1 h256 => ?_⟩
  · have ha := a.isLt
    simp only [BitVec.extractLsb'_toNat, Nat.shiftRight_eq_div_pow]
    omega
  · rw [flashKB_eq_append, append_toNat]
    omega
  · rw [lenByte_toNat h256]
    omega

end Sys2Proof.Machine

/-! ### A read of bytes that are already there (40_link_ops.md R168) -/

namespace Sys2Proof.Machine

/-- R111: a `READ_BYTES` of a count in range is what its own word asks for. -/
theorem decodeReq_readBytes (q : Bool) {n : BitVec 9} (h : Instr.readLenOk n) :
    decodeReq q (encode (.readBytes n)) = .ok (.readBytes n) := by
  simp [decodeReq, encode, decodeReadBytes, h]

/-- R163: a `READ_BYTES` of a count in range starts a read of that count. -/
theorem accepted_readBytes {n : BitVec 9} (h : Instr.readLenOk n) {s : State} :
    accepted (.readBytes n) s =
      (s.latchRequest (.readBytes n)).startRx n.toNat (rxBudget s.cfg) := if_pos h

/-- A budget that starts afresh has not had its last tick (R168, R391). -/
theorem State.not_lastTickUnseen {s : State} (h : s.link.rxpolls = rxBudget s.cfg) :
    ¬ s.lastTickUnseen :=
  fun ⟨_, hb, hp⟩ => hb (h.symm.trans hp)

/-- The state once the bytes `bs` are stored and `rest` is left in the FIFO. -/
def State.received (bs rest : List Byte) (s : State) : State :=
  { s with
    chan := { s.chan with rxfifo := rest }
    link := { s.link with
      rxbuf := s.link.rxbuf.writeList s.link.rxcnt bs
      rxcnt := s.link.rxcnt + bs.length
      rxpolls := rxBudget s.cfg } }

/-- Bytes stored after a first one are stored behind it, in order. -/
theorem State.received_received (b : Byte) (bs mid rest : List Byte) (s : State) :
    (s.received [b] mid).received bs rest = s.received (b :: bs) rest := by
  simp only [State.received, Memory.writeList, List.length_cons, List.length_nil, Nat.zero_add,
    Nat.add_assoc, Nat.add_comm 1]

/-- A receive step with a byte there and the byte's budget untouched takes it. -/
theorem step_rx {s : State} {b : Byte} {rest : List Byte} (hl : legalParameters s.cfg)
    (ht : s.turns = []) (hr : s.link.lstate = .rx) (hp : s.link.rxpolls = rxBudget s.cfg)
    (hf : s.chan.rxfifo = b :: rest) (hc : s.link.rxcnt < Arr.rxbuf.size) :
    step s = .next (s.received [b] rest).afterStored := by
  rw [step_engine hl ht (by rw [hr]; rintro ⟨⟩), engineStep, hr]
  exact rxStep_byte hf (State.not_lastTickUnseen hp) hc

/-- The bytes that a read still wants, all of them there: one step each, and the last finishes it. -/
theorem runs_rx {b : Byte} {bs rest : List Byte} {s : State} (hl : legalParameters s.cfg)
    (ht : s.turns = []) (hr : s.link.lstate = .rx) (hp : s.link.rxpolls = rxBudget s.cfg)
    (hf : s.chan.rxfifo = b :: bs ++ rest)
    (hn : s.link.rxcnt + (b :: bs).length = s.link.rxn) (hs : s.link.rxn ≤ Arr.rxbuf.size) :
    Runs (b :: bs).length s ((s.received (b :: bs) rest).finish .ok) := by
  induction bs generalizing s b with
  | nil =>
    have first := step_rx hl ht hr hp hf (by rw [List.length_cons] at hn; omega)
    have last : (s.received [b] rest).link.rxcnt = s.link.rxn := hn
    exact Runs.one (first.trans (congrArg _ (if_pos last)))
  | cons c bs ih =>
    have first := step_rx hl ht hr hp hf (by rw [List.length_cons] at hn; omega)
    have hcount : s.link.rxcnt + 1 + (c :: bs).length = s.link.rxn := by
      rw [← hn, List.length_cons (a := b)]
      omega
    have more : (s.received [b] (c :: bs ++ rest)).link.rxcnt ≠ s.link.rxn := by
      show s.link.rxcnt + 1 ≠ s.link.rxn
      rw [List.length_cons] at hcount
      omega
    have left := ih (s := s.received [b] (c :: bs ++ rest)) hl ht hr rfl rfl hcount hs
    rw [State.received_received] at left
    exact Runs.cons (first.trans (congrArg _ (if_neg more))) left

/-- Settles O30: the request starts the read with nothing stored, and `runs_rx` takes the bytes. -/
theorem readTakesBytesInOrder : Obligations.ReadTakesBytesInOrder := by
  intro s n bs rest hl hi hb h1 h256 hlen hf ht
  have hok : Instr.readLenOk n := ⟨h1, h256⟩
  have request := step_request hl hi hb ht (decodeReq_readBytes _ hok)
  rw [accepted_readBytes hok] at request
  obtain ⟨b, bs, rfl⟩ := List.exists_cons_of_length_pos (hlen ▸ h1)
  have hcount : 0 + (b :: bs).length = n.toNat := (Nat.zero_add _).trans hlen
  have read := runs_rx
    (s := (({ s with turns := [] } : State).latchRequest (.readBytes n)).startRx n.toNat
      (rxBudget s.cfg)) hl rfl rfl rfl hf hcount h256
  rw [hlen] at read
  refine ⟨_, (Runs.one request).trans read, rfl, rfl, hcount, fun k hk => ?_, fun k hk => ?_, rfl,
    rfl, rfl, rfl⟩
  · have hin := Memory.read_writeList_inside s.link.rxbuf (a := 0) (hlen.symm ▸ hk)
    rw [Nat.zero_add] at hin
    exact hin
  · exact Memory.read_writeList_outside s.link.rxbuf (a := 0) (.inr (by omega))

end Sys2Proof.Machine

/-! ### A client's read (10_state.md R32) -/

namespace Sys2Proof.Machine

/-- A read of a register that does not exist is a fault. -/
theorem regRead_of_no_reg {s : State} {n : Nat} (h : regOfNum s.cfg.seqPresent n = none) :
    RecordsFault .badRegister s (access (.regRead n) s) := by
  simp only [access, regRead, h]
  exact recordsFault_raise _ _

/-- Settles O44: a register exists or not; an element is inside its array or not, with a value or
without one. -/
theorem readsChangeNothing : Obligations.ReadsChangeNothing := by
  rintro s a (⟨n, rfl⟩ | ⟨r, i, rfl⟩)
  · cases hreg : regOfNum s.cfg.seqPresent n with
    | some r => exact .inl ⟨_, regRead_of_reg r hreg⟩
    | none => exact .inr ⟨_, regRead_of_no_reg hreg⟩
  · by_cases hin : r.present s.cfg.seqPresent = true ∧ i < r.size
    · cases hel : r.element i s with
      | some b => exact .inl ⟨_, arrRead_of_element hin.1 hin.2 hel⟩
      | none => exact .inr ⟨_, arrRead_of_unwritten hin.1 hin.2 hel⟩
    · exact .inr ⟨_, arrRead_outside hin ▸ recordsFault_raise _ _⟩

end Sys2Proof.Machine

/-! ### The request word: decoder and encoder (30_encoding.md R110 to R114) -/

namespace Sys2Proof

/-- A word without reserved bits is built from its three fields. -/
theorem requestWord_of_fields {v : Word} {op : BitVec 4} {b : Byte} {l : BitVec 9}
    (hlow : reqLow v = 0) (hhigh : reqHigh v = 0) (hop : reqOp v = op) (hb : reqByte v = b)
    (hl : reqLen v = l) : requestWord op b l = v := by
  subst hop hb hl
  have elow : v.toNat / 16 % 16 = 0 := (reqLow_toNat v).symm.trans (congrArg BitVec.toNat hlow)
  have ehigh : v.toNat / 33554432 = 0 :=
    (reqHigh_toNat v).symm.trans (congrArg BitVec.toNat hhigh)
  apply BitVec.eq_of_toNat_eq
  rw [requestWord_toNat, reqOp_toNat, reqByte_toNat, reqLen_toNat]
  omega

/-- A byte with no bit but bit 0 is that bit. -/
theorem byte_of_bit_zero {b : Byte} (h : b.extractLsb' 1 7 = 0) :
    b = if b.getLsbD 0 then 1 else 0 := by
  revert b
  decide

theorem extractLsb'_one_seven_ne_zero (b : Byte) : b.extractLsb' 1 7 ≠ 0 ↔ b.toNat / 2 ≠ 0 := by
  revert b
  decide

/-! What each arm of the decoder takes. -/

theorem ite_error_eq_ok {ε α : Type} {p : Prop} [Decidable p] {e : ε} {x : Except ε α} {a : α} :
    (if p then .error e else x) = .ok a ↔ ¬ p ∧ x = .ok a := by
  split <;> simp [*]

theorem ite_ok_eq_ok {ε α : Type} {p : Prop} [Decidable p] {e : ε} {a b : α} :
    (if p then .ok a else .error e : Except ε α) = .ok b ↔ p ∧ a = b := by
  split <;> simp [*]

theorem decodeBare_eq_ok {v : Word} {i j : Instr} :
    decodeBare v i = .ok j ↔ reqByte v = 0 ∧ reqLen v = 0 ∧ i = j := by
  simp only [decodeBare, ite_error_eq_ok, not_not, Except.ok.injEq]

theorem decodeSendCmd_eq_ok {v : Word} {j : Instr} :
    decodeSendCmd v = .ok j ↔ reqLen v = 0 ∧ .sendCmd (reqByte v) = j := by
  simp only [decodeSendCmd, ite_error_eq_ok, not_not, Except.ok.injEq]

theorem decodeSendFrame_eq_ok {v : Word} {j : Instr} :
    decodeSendFrame v = .ok j ↔
      reqByte v = 0 ∧ Instr.frameLenOk (reqLen v) ∧ .sendFrame (reqLen v) = j := by
  simp only [decodeSendFrame, ite_error_eq_ok, ite_ok_eq_ok, not_not]

theorem decodeReadBytes_eq_ok {v : Word} {j : Instr} :
    decodeReadBytes v = .ok j ↔
      reqByte v = 0 ∧ Instr.readLenOk (reqLen v) ∧ .readBytes (reqLen v) = j := by
  simp only [decodeReadBytes, ite_error_eq_ok, ite_ok_eq_ok, not_not]

theorem decodeSeqStart_eq_ok {q : Bool} {v : Word} {j : Instr} :
    decodeSeqStart q v = .ok j ↔
      q = true ∧ (reqByte v).extractLsb' 1 7 = 0 ∧ reqLen v = 0 ∧
        .seqStart ((reqByte v).getLsbD 0) = j := by
  simp only [decodeSeqStart, ite_error_eq_ok, not_not, Except.ok.injEq, Bool.not_eq_false]

/-- Settles O2: the word of an operation has the fields that its arm of the decoder takes. -/
theorem decodeOfEncode : Obligations.DecodeOfEncode := by
  intro q i hwf
  cases i with
  | sendCmd c => simp [decodeReq, encode, decodeSendCmd_eq_ok]
  | sendFrame n => simpa [decodeReq, encode, decodeSendFrame_eq_ok] using hwf
  | readBytes n => exact Machine.decodeReq_readBytes q hwf
  | seqStart resume =>
    have bit : ∀ r : Bool, (if r then 1 else 0 : Byte).extractLsb' 1 7 = 0 ∧
        (if r then 1 else 0 : Byte).getLsbD 0 = r := by decide
    simpa [decodeReq, encode, decodeSeqStart_eq_ok] using ⟨hwf, bit resume⟩
  | probe | waitAck | readByte | flushRx | setEvenParity =>
    simp [decodeReq, encode, decodeBare_eq_ok]

/-- Settles O3: the operation code picks the arm, and what the arm takes are the fields of the
operation's own word. -/
theorem encodeOfDecode : Obligations.EncodeOfDecode := by
  intro q v i h
  unfold decodeReq at h
  split at h
  · cases h
  next hbits =>
    simp only [not_or, not_not] at hbits
    obtain ⟨hlow, hhigh⟩ := hbits
    have word {op : BitVec 4} {b : Byte} {l : BitVec 9} (hop : (reqOp v).toNat = op.toNat) :
        reqByte v = b → reqLen v = l → requestWord op b l = v :=
      requestWord_of_fields hlow hhigh (BitVec.eq_of_toNat_eq hop)
    split at h
    case h_2 hop =>
      obtain ⟨hl, rfl⟩ := decodeSendCmd_eq_ok.1 h
      exact ⟨word hop rfl hl, trivial⟩
    case h_3 hop =>
      obtain ⟨hb, hok, rfl⟩ := decodeSendFrame_eq_ok.1 h
      exact ⟨word hop hb rfl, hok⟩
    case h_6 hop =>
      obtain ⟨hb, hok, rfl⟩ := decodeReadBytes_eq_ok.1 h
      exact ⟨word hop hb rfl, hok⟩
    case h_9 hop =>
      obtain ⟨hq, hb, hl, rfl⟩ := decodeSeqStart_eq_ok.1 h
      exact ⟨word hop (byte_of_bit_zero hb) hl, hq⟩
    case h_10 => cases h
    all_goals
      next hop =>
        obtain ⟨hb, hl, rfl⟩ := decodeBare_eq_ok.1 h
        exact ⟨word hop hb hl, trivial⟩

/-- A request word decodes to an operation exactly if it is the word of that operation. -/
theorem decodeReq_eq_ok {q : Bool} {v : Word} {i : Instr} :
    decodeReq q v = .ok i ↔ encode i = v ∧ i.WellFormed q := by
  constructor
  · exact encodeOfDecode q v i
  · rintro ⟨rfl, hwf⟩
    exact decodeOfEncode q i hwf

/-! ### The reserved words (30_encoding.md R113, R114) -/

/-- A decoder that does not take the word rejects it. -/
theorem exists_error_iff {ε α : Type} {x : Except ε α} :
    (∃ e, x = .error e) ↔ ¬ ∃ a, x = .ok a := by
  cases x <;> simp

theorem decodeBare_rejects {v : Word} {i : Instr} :
    (∃ e, decodeBare v i = .error e) ↔ (reqByte v).toNat ≠ 0 ∨ (reqLen v).toNat ≠ 0 := by
  rw [exists_error_iff]
  simp [decodeBare_eq_ok, BitVec.toNat_eq, imp_iff_not_or]

theorem decodeSendCmd_rejects {v : Word} :
    (∃ e, decodeSendCmd v = .error e) ↔ (reqLen v).toNat ≠ 0 := by
  rw [exists_error_iff]
  simp [decodeSendCmd_eq_ok, BitVec.toNat_eq]

theorem decodeSendFrame_rejects {v : Word} :
    (∃ e, decodeSendFrame v = .error e) ↔
      (reqByte v).toNat ≠ 0 ∨ (reqLen v).toNat < 1 ∨ 257 < (reqLen v).toNat := by
  rw [exists_error_iff]
  simp only [decodeSendFrame_eq_ok, exists_and_left, exists_eq', and_true, BitVec.toNat_eq,
    BitVec.ofNat_eq_ofNat, BitVec.toNat_zero, Instr.frameLenOk, Config.maxFrame]
  omega

theorem decodeReadBytes_rejects {v : Word} :
    (∃ e, decodeReadBytes v = .error e) ↔
      (reqByte v).toNat ≠ 0 ∨ (reqLen v).toNat < 1 ∨ 256 < (reqLen v).toNat := by
  rw [exists_error_iff]
  simp only [decodeReadBytes_eq_ok, exists_and_left, exists_eq', and_true, BitVec.toNat_eq,
    BitVec.ofNat_eq_ofNat, BitVec.toNat_zero, Instr.readLenOk, Config.maxRead]
  omega

theorem decodeSeqStart_rejects {q : Bool} {v : Word} :
    (∃ e, decodeSeqStart q v = .error e) ↔
      q = false ∨ (reqByte v).toNat / 2 ≠ 0 ∨ (reqLen v).toNat ≠ 0 := by
  rw [exists_error_iff, ← extractLsb'_one_seven_ne_zero]
  cases q <;> simp [decodeSeqStart_eq_ok, BitVec.toNat_eq, imp_iff_not_or]

/-- Settles O4: a word with a reserved bit is rejected at once, any other by the arm of its code. -/
theorem reservedWordsAreExactly : Obligations.ReservedWordsAreExactly := by
  intro q v
  have hlow : v.toNat / 16 % 16 ≠ 0 ↔ reqLow v ≠ 0 := by
    simp [BitVec.toNat_eq, reqLow_toNat]
  have hhigh : v.toNat / 2 ^ 25 ≠ 0 ↔ reqHigh v ≠ 0 := by
    simp [BitVec.toNat_eq, reqHigh_toNat]
  dsimp only
  rw [hlow, hhigh, show 2 ^ 8 = 256 from rfl, show 2 ^ 16 = 65536 from rfl, ← reqOp_toNat,
    ← reqByte_toNat, ← reqLen_toNat]
  unfold decodeReq
  split
  next hbits => exact iff_of_true ⟨_, rfl⟩ (or_assoc.1 (.inl hbits))
  next hbits =>
    simp only [not_or, not_not] at hbits
    obtain ⟨hl, hh⟩ := hbits
    split
    case h_10 =>
      have outside : (reqOp v).toNat = 0 ∨ 0xA ≤ (reqOp v).toNat := by
        simp only [imp_false] at *
        omega
      exact iff_of_true ⟨_, rfl⟩ (.inr (.inr (or_assoc.1 (.inl outside))))
    all_goals
      next hop =>
        simp [hop, hl, hh, decodeBare_rejects, decodeSendCmd_rejects, decodeSendFrame_rejects,
          decodeReadBytes_rejects, decodeSeqStart_rejects]

/-! ### The lines of the syntax (30_encoding.md R145) -/

/-- The word of a line with a length (`n << 16` and the code). -/
theorem lengthWord_toNat {n : Nat} {op : Word} (hn : n < 65536) (hop : op.toNat < 16) :
    ((BitVec.ofNat 32 n <<< 16) + op).toNat = op.toNat + n * 65536 := by
  rw [BitVec.toNat_add, BitVec.toNat_shiftLeft, BitVec.toNat_ofNat, Nat.shiftLeft_eq]
  omega

theorem lengthWord_eq_requestWord (n : BitVec 9) (op : BitVec 4) :
    (BitVec.ofNat 32 n.toNat <<< 16) + op.zeroExtend 32 = requestWord op 0 n := by
  have hn := n.isLt
  have hop := op.isLt
  have hext : (op.zeroExtend 32).toNat = op.toNat := BitVec.toNat_setWidth_of_le (by decide)
  apply BitVec.eq_of_toNat_eq
  rw [lengthWord_toNat (by omega) (by omega), hext, requestWord_toNat]
  rfl

theorem commandWord_eq_requestWord (c : Byte) :
    (c.zeroExtend 32 <<< 8) + 0x2 = requestWord 0x2 c 0 := by
  revert c
  decide

/-- A length above the operation's range is out of range in `LEN`, or reaches bits 31:25. -/
theorem lengthWord_reserved (q : Bool) {n : Nat} {op : Word}
    (h : op = 0x3 ∧ 257 < n ∨ op = 0x6 ∧ 256 < n) (hn : n < 65536) :
    ∃ e, decodeReq q ((BitVec.ofNat 32 n <<< 16) + op) = .error e := by
  have hop : op.toNat = 0x3 ∧ 257 < n ∨ op.toNat = 0x6 ∧ 256 < n :=
    h.imp (And.imp_left (congrArg BitVec.toNat)) (And.imp_left (congrArg BitVec.toNat))
  refine (reservedWordsAreExactly q _).2 ?_
  rw [lengthWord_toNat hn (by omega)]
  omega

/-- Settles O5: the word of each line from its fields; a length out of range by the reserved words. -/
theorem syntaxLinesGiveTheWords : Obligations.SyntaxLinesGiveTheWords := by
  refine ⟨fun c => congrArg some (commandWord_eq_requestWord c),
    fun n => congrArg some (lengthWord_eq_requestWord n 0x3),
    fun n => congrArg some (lengthWord_eq_requestWord n 0x6),
    fun q n h1 h2 => ?_, fun q n h1 h2 => ?_, by decide, by decide⟩
  · obtain ⟨e, he⟩ := lengthWord_reserved q (.inl ⟨rfl, h1⟩) h2
    exact ⟨_, e, rfl, he⟩
  · obtain ⟨e, he⟩ := lengthWord_reserved q (.inr ⟨rfl, h1⟩) h2
    exact ⟨_, e, rfl, he⟩

/-- Settles O1: each word is the word of its operation. -/
theorem tableWordsDecode : Obligations.TableWordsDecode := by
  have decodes (i : Instr) (h : i.WellFormed true) := decodeOfEncode true i h
  exact ⟨decodes .probe trivial, decodes (.sendCmd 0x11) trivial,
    decodes (.sendFrame 257) (by decide), decodes .waitAck trivial, decodes .readByte trivial,
    decodes (.readBytes 256) (by decide), decodes .flushRx trivial, decodes .setEvenParity trivial,
    decodes (.seqStart true) rfl⟩

end Sys2Proof

/-! ### SEQ_START (46_sequencer.md R281) -/

namespace Sys2Proof.Machine

theorem exec_busy {s : State} (h : s.link.lstate ≠ .idle) (i : Instr) :
    exec i s = .next (s.raise .clientBusyWrite) := by
  rw [exec_eq, whenIdle_busy h]

/-- Where there is a Sequencer, one bit of the word chooses between the two forms. -/
theorem decodeReq_eq_seqStart {q : Bool} {v : Word} {resume : Bool} :
    decodeReq q v = .ok (.seqStart resume) ↔
      q = true ∧ v = (if resume then 0x00000109 else 0x00000009) := by
  have word : encode (.seqStart resume) = if resume then 0x00000109 else 0x00000009 := by
    revert resume
    decide
  rw [decodeReq_eq_ok, word, and_comm, eq_comm (b := v)]

theorem accepted_seqStart {s : State} (hq : s.cfg.seqPresent = true) (hb : s.seq.sbusy = false)
    (resume : Bool) : accepted (.seqStart resume) s =
      ((s.latchRequest (.seqStart resume)).startSession resume).finish .ok := by
  simp [accepted, hq, hb]

theorem accepted_seqStart_running {s : State} (hb : s.seq.sbusy = true) (resume : Bool) :
    accepted (.seqStart resume) s = s.raise .clientBusyWrite :=
  if_pos hb

/-- Settles O18: an idle engine starts the session or meets one that runs; a busy one takes nothing. -/
theorem seqStartDone : Obligations.SeqStartDone := by
  refine ⟨fun q v resume => decodeReq_eq_seqStart,
    fun s resume hq => ⟨fun hi hb => ?_, fun h => ?_⟩⟩
  · rw [exec_idle hi, accepted_seqStart hq hb]
    exact ⟨_, rfl⟩
  · by_cases hi : s.link.lstate = .idle
    · have hb : s.seq.sbusy = true := h.resolve_left (not_not_intro hi)
      rw [exec_idle hi, accepted_seqStart_running hb]
      exact recordsFault_raise _ _
    · rw [exec_busy hi]
      exact recordsFault_raise _ _

end Sys2Proof.Machine

/-! ### The accepting step of each operation (40_link_ops.md R163) -/

namespace Sys2Proof.Machine

/-- Settles O10: the state an idle engine leaves on a PROBE. -/
theorem probeAccepted : Obligations.ProbeAccepted := fun _ hi => ⟨_, exec_idle hi .probe⟩

/-- Settles O11: the state an idle engine leaves on a SEND_CMD. -/
theorem sendCmdAccepted : Obligations.SendCmdAccepted :=
  fun _ c hi => ⟨_, exec_idle hi (.sendCmd c)⟩

/-- Settles O14: the state an idle engine leaves on a WAIT_ACK. -/
theorem waitAckAccepted : Obligations.WaitAckAccepted := fun _ hi => ⟨_, exec_idle hi .waitAck⟩

/-- R163, R176: a `SEND_FRAME` of a length in range whose bytes were all written sends its frame. -/
theorem accepted_sendFrame {s : State} {n : BitVec 9} {p : List Byte} (h : Instr.frameLenOk n)
    (hp : s.txPayload n.toNat = some p) : accepted (.sendFrame n) s =
      (s.latchRequest (.sendFrame n)).startTx (encFrame p) s.cfg.longPolls 1 := by
  simp only [accepted, if_pos h, hp]

/-- R163, R42: a `SEND_FRAME` of a length in range with an unwritten byte is a fault. -/
theorem accepted_sendFrame_unwritten {s : State} {n : BitVec 9} (h : Instr.frameLenOk n)
    (hp : s.txPayload n.toNat = none) :
    accepted (.sendFrame n) s = s.raise .txbufUnwritten := by
  simp only [accepted, if_pos h, hp]

/-- Settles O12: the payload is the bytes of `TXBUF`. -/
theorem sendFrameAccepted : Obligations.SendFrameAccepted := by
  intro s n p hi h1 h257 hlen hread
  rw [exec_idle hi, accepted_sendFrame ⟨h1, h257⟩ (txPayload_eq_some.2 ⟨hlen, hread⟩)]
  exact ⟨_, rfl⟩

/-- Settles O13: with the byte `i` unwritten there is no payload. -/
theorem sendFrameUnwrittenFaults : Obligations.SendFrameUnwrittenFaults := by
  intro s n i hi h1 h257 hin hread
  have none : s.txPayload n.toNat = none := by
    rw [← Option.not_isSome_iff_eq_none, txPayload_isSome]
    exact fun held => by simpa [hread] using held i hin
  rw [exec_idle hi, accepted_sendFrame_unwritten ⟨h1, h257⟩ none]
  exact recordsFault_raise _ _

/-- Settles O15: the state an idle engine leaves on a read, the budget being that of R163. -/
theorem readsAccepted : Obligations.ReadsAccepted := by
  intro s hi
  rw [← rxBudget_eq]
  refine ⟨⟨_, exec_idle hi .readByte⟩, fun n h1 h256 => ?_⟩
  rw [exec_idle hi, accepted_readBytes ⟨h1, h256⟩]
  exact ⟨_, rfl⟩

/-- Settles O16: the decoder takes the operation's own word alone; an idle engine is done at once. -/
theorem flushRxDone : Obligations.FlushRxDone := by
  refine ⟨fun q v => ?_, fun s hi => ⟨_, exec_idle hi .flushRx⟩⟩
  rw [decodeReq_eq_ok, and_true, eq_comm]
  rfl

/-- Settles O17: the decoder takes the operation's own word alone; an idle engine is done at once. -/
theorem setEvenParityDone : Obligations.SetEvenParityDone := by
  refine ⟨fun q v => ?_, fun s hi => ⟨_, exec_idle hi .setEvenParity⟩⟩
  rw [decodeReq_eq_ok, and_true, eq_comm]
  rfl

/-- R163, R113: an operation that no word asks for is a bad request. -/
theorem accepted_of_not_wellFormed {s : State} {i : Instr} (hb : s.seq.sbusy = false)
    (h : ¬ i.WellFormed s.cfg.seqPresent) : accepted i s = s.badRequest (encode i) := by
  cases i with
  | sendFrame n => exact if_neg h
  | readBytes n => exact if_neg h
  | seqStart r => simp [accepted, hb, h]
  | probe | sendCmd | waitAck | readByte | flushRx | setEvenParity => exact absurd trivial h

/-- Settles O19: only a length out of range and a missing Sequencer make an operation ill-formed. -/
theorem illFormedIsBadRequest : Obligations.IllFormedIsBadRequest := by
  intro s i hi hb h
  rw [exec_idle hi, accepted_of_not_wellFormed hb h]
  exact ⟨_, rfl⟩

/-- Settles O20: a busy engine takes no request, and an idle one no SEQ_START in a session. -/
theorem busyRequestFaults : Obligations.BusyRequestFaults := by
  intro s i h
  by_cases hi : s.link.lstate = .idle
  · obtain ⟨hb, r, rfl⟩ := h.resolve_left (not_not_intro hi)
    rw [exec_idle hi, accepted_seqStart_running hb]
    exact recordsFault_raise _ _
  · rw [exec_busy hi]
    exact recordsFault_raise _ _

/-- Settles O21: an idle engine's accepting step by its frame, a busy one's is a fault alone. -/
theorem acceptingStepFrame : Obligations.AcceptingStepFrame := by
  intro i s t h
  rw [exec_eq] at h
  obtain ⟨-, rfl⟩ | ⟨-, rfl⟩ := whenIdle_next h
  · obtain ⟨hcfg, hlog, hticks, htx, hrx, hbudget, hlast, hsource, hturns, hout, -⟩ :=
      accepted_frame i s
    obtain ⟨hfifo, hpar, hseq, -⟩ := accepted_only i s
    exact ⟨hlog, hticks, fun k => by rw [htx], fun k => by rw [hrx], hbudget, hlast, hfifo, hpar,
      hseq, hcfg, hsource, hturns, hout⟩
  · simp

end Sys2Proof.Machine

/-! ### The engine's steps (40_link_ops.md R164 to R168) -/

namespace Sys2Proof.Machine

/-- Settles O22: the byte sent is the last one of `TXQ` or another follows. -/
theorem transmitStep : Obligations.TransmitStep := by
  intro s b hl hb
  have sent : engineStep s = .next (s.chanWrite b).afterSent := by
    simp only [engineStep, hl, txStep, hb]
  rw [sent]
  by_cases hlast : s.link.txptr + 1 = s.link.txq.length
  · simp only [if_pos hlast]
    exact congrArg _ (if_pos hlast)
  · simp only [if_neg hlast, ← hl]
    exact congrArg _ (if_neg hlast)

theorem engineStep_ackwait {s : State} (hl : s.link.lstate = .ackwait) :
    engineStep s = .next (ackStep s) := by
  simp only [engineStep, hl]

/-- R165: with polls left the first byte there is ends the wait. -/
theorem ackStep_byte {s : State} {b : Byte} {rest : List Byte} (hp : s.link.polls ≠ 0)
    (hf : s.chan.rxfifo = b :: rest) : ackStep s =
      (({ s with chan := { s.chan with rxfifo := rest } } : State).setLastRx b).endWait
        (classify b) := by
  simp only [ackStep, if_neg hp, State.chanRead, hf]

/-- R166: with polls left an empty FIFO costs a tick and a poll. -/
theorem ackStep_empty {s : State} (hp : s.link.polls ≠ 0) (hf : s.chan.rxfifo = []) :
    ackStep s = s.tick.spendPoll := by
  simp only [ackStep, if_neg hp, State.chanRead, hf]

/-- R166, R349: with no poll left the wait times out, whatever is there. -/
theorem ackStep_spent {s : State} (hp : s.link.polls = 0) : ackStep s = s.endWait .timeout :=
  if_pos hp

theorem classify_eq_ok {b : Byte} : classify b = .ok ↔ b = 0x79 := by
  rw [classify_cases]
  by_cases hack : b = 0x79
  · exact iff_of_true (if_pos hack) hack
  · rw [if_neg hack]
    refine iff_of_false ?_ hack
    split <;> decide

theorem classify_result (b : Byte) : (classify b).result =
    if b = 0x79 then .ok else if b = 0x1F then .nack else .unexpected := by
  rw [classify_cases]
  split
  · rfl
  · split <;> rfl

/-- Settles O23: the byte taken is classified, and the wait ends by its class. -/
theorem ackWaitTakesFirstByte : Obligations.AckWaitTakesFirstByte := by
  intro s b rest hl hp hf
  rw [engineStep_ackwait hl, ackStep_byte hp hf, State.endWait_eq, ← classify_result]
  have reissues : classify b ≠ .ok ∧ 1 < s.link.attempts ↔ b ≠ 0x79 ∧ 1 < s.link.attempts :=
    and_congr_left' classify_eq_ok.not
  by_cases h : b ≠ 0x79 ∧ 1 < s.link.attempts
  · rw [if_pos h]
    exact congrArg _ (if_pos (reissues.2 h))
  · rw [if_neg h]
    exact congrArg _ (if_neg (mt reissues.1 h))

/-- Settles O24: a tick while polls are left, else the wait ends with TIMEOUT. -/
theorem ackWaitWithoutByte : Obligations.AckWaitWithoutByte := by
  intro s hl
  refine ⟨fun hp hf => ?_, fun hp => ?_⟩
  · rw [engineStep_ackwait hl, ackStep_empty hp hf]
    rfl
  · rw [engineStep_ackwait hl, ackStep_spent hp, State.endWait_eq]
    by_cases h : 1 < s.link.attempts
    · rw [if_pos h, if_pos ⟨by decide, h⟩]
      rfl
    · rw [if_neg h, if_neg fun hc => h hc.2]
      rfl

end Sys2Proof.Machine

/-! ### The receive step (40_link_ops.md R168, 70_reset_and_hazards.md R391) -/

namespace Sys2Proof.Machine

theorem engineStep_rx {s : State} (hl : s.link.lstate = .rx) : engineStep s = rxStep s := by
  simp only [engineStep, hl]

/-- A byte stored that is the last one of the read, or not. -/
theorem State.afterStored_storeRx {s : State} (hl : s.link.lstate = .rx) (b : Byte) :
    (s.storeRx b).afterStored = { s with
      link := { s.link with
        rxbuf := s.link.rxbuf.write s.link.rxcnt b
        rxcnt := s.link.rxcnt + 1
        rxpolls := rxBudget s.cfg
        result := (if s.link.rxcnt + 1 = s.link.rxn then .ok else s.link.result)
        rv := (if s.link.rxcnt + 1 = s.link.rxn then true else s.link.rv)
        lstate := (if s.link.rxcnt + 1 = s.link.rxn then .idle else .rx)
        ackout := (if s.link.rxcnt + 1 = s.link.rxn then none else s.link.ackout) } } := by
  by_cases hlast : s.link.rxcnt + 1 = s.link.rxn
  · simp only [if_pos hlast]
    exact if_pos hlast
  · simp only [if_neg hlast, ← hl]
    exact if_neg hlast

/-- Where a read may take what it finds, no byte is unseen. -/
theorem State.not_lastTickUnseen_of_may_take {s : State}
    (h : s.cfg.readSeesLastTick = true ∨ s.cfg.readPolls = none ∨ s.cfg.readPolls = some 0 ∨
      s.link.rxpolls ≠ 0) : ¬ s.lastTickUnseen := by
  rintro ⟨hsees, hbudget, hpolls⟩
  rw [rxBudget_eq] at hbudget
  obtain h | h | h | h := h
  · exact absurd (hsees.symm.trans h) (by decide)
  · exact hbudget (by rw [h]; rfl)
  · exact hbudget (by rw [h]; rfl)
  · exact h hpolls

/-- Settles O25: a byte there is stored or unseen; with none there the budget decides. -/
theorem receiveStep : Obligations.ReceiveStep := by
  intro s hl
  rw [engineStep_rx hl]
  refine ⟨fun b rest hc hf htake => ?_, fun k hsees hk hk0 hp => ?_, fun k hf hk hp => ?_,
    fun k hf hk hp => ?_, fun hf hk => ?_⟩
  · refine ⟨_, Memory.read_write_same .., fun k hk => Memory.read_write_ne _ b hk, ?_⟩
    rw [rxStep_byte hf (State.not_lastTickUnseen_of_may_take htake) hc,
      State.afterStored_storeRx (by exact hl), rxBudget_eq]
  · have unseen : s.lastTickUnseen := ⟨hsees, by rw [rxBudget_eq, hk]; exact hk0, hp⟩
    exact if_pos unseen
  · exact rxStep_spent hf ⟨by rw [hk]; rfl, hp⟩
  · rw [rxStep_tick hf fun hs => hp hs.2, State.spendRxPoll, if_pos (by simp [hk])]
    rfl
  · have unbounded : ¬ s.rxSpent := by simp [State.rxSpent, hk]
    rw [rxStep_tick hf unbounded, State.spendRxPoll, if_neg (by simp [hk])]
    rfl

end Sys2Proof.Machine

/-! ### Checksums and frames (40_link_ops.md R160, R162) -/

namespace Sys2Proof.Machine

/-- The XOR of all bytes is the same from either end. -/
theorem foldxor_eq_foldr (init : Byte) (p : List Byte) :
    foldxor init p = init ^^^ p.foldr (fun b x => b ^^^ x) 0 := by
  induction p generalizing init with
  | nil => exact BitVec.xor_zero.symm
  | cons b p ih => rw [foldxor, ih, List.foldr_cons, BitVec.xor_assoc]

theorem cks_eq_foldxor {p : List Byte} (h : 2 ≤ p.length) : cks p = foldxor 0 p := by
  match p, h with
  | _ :: _ :: _, _ => rfl

/-- Settles O6: one byte by definition, more by the direction of the fold. -/
theorem checksumRule : Obligations.ChecksumRule := by
  refine ⟨fun b => rfl, fun p hp => ?_, by decide⟩
  rw [cks_eq_foldxor hp, foldxor_eq_foldr]
  exact BitVec.zero_xor

theorem validFrame_append_singleton {p : List Byte} (b : Byte) (h : 1 ≤ p.length) :
    validFrame (p ++ [b]) = true ↔ b = cks p := by
  have long : 2 ≤ (p ++ [b]).length := by
    rw [List.length_append]
    exact Nat.succ_le_succ h
  simp only [validFrame, decide_eq_true long, Bool.true_and, decide_eq_true_eq,
    List.getLast?_concat, List.dropLast_concat, Option.some.injEq]

theorem validFrame_encFrame {p : List Byte} (h : 1 ≤ p.length) : validFrame (encFrame p) = true :=
  (validFrame_append_singleton _ h).2 rfl

/-- Settles O7: a command pair is the frame of its one byte. -/
theorem framesAreValid : Obligations.FramesAreValid :=
  ⟨fun _ b h => validFrame_append_singleton b h, fun _ h => validFrame_encFrame h,
    fun c => validFrame_encFrame (p := [c]) (Nat.le_refl 1)⟩

end Sys2Proof.Machine

/-! ### How many bytes the transactions send and take (45_isp_transactions.md R243, R245) -/

namespace Sys2Proof.Machine

theorem encFrame_length (p : List Byte) : (encFrame p).length = p.length + 1 := by
  rw [encFrame, List.length_append]
  rfl

/-- A frame call whose length fits sends its frame. -/
theorem accepted_frame_call {p : List Byte} (h : (LinkCall.frame p).Fits) (s : State) :
    accepted (LinkCall.frame p).request ((LinkCall.frame p).prepare s) =
      ((s.fillTxbuf p).latchRequest (.sendFrame (lenField p.length))).startTx (encFrame p)
        s.cfg.longPolls 1 := by
  obtain ⟨h1, h2⟩ := h
  have hn : (lenField p.length).toNat = p.length :=
    lenField_toNat (Nat.lt_of_le_of_lt h2 (by decide))
  refine accepted_sendFrame (s := s.fillTxbuf p) ?_ ?_
  · rw [Instr.frameLenOk, hn]
    exact ⟨h1, h2⟩
  · rw [hn, txPayload_fillTxbuf]

/-- A read call whose count fits reads that many bytes. -/
theorem accepted_readn_call {n : Nat} (h : (LinkCall.readn n).Fits) (s : State) :
    accepted (LinkCall.readn n).request s =
      (s.latchRequest (.readBytes (lenField n))).startRx n (rxBudget s.cfg) := by
  obtain ⟨h1, h2⟩ := h
  have hn : (lenField n).toNat = n := lenField_toNat (Nat.lt_of_le_of_lt h2 (by decide))
  have hok : Instr.readLenOk (lenField n) := by
    rw [Instr.readLenOk, hn]
    exact ⟨h1, h2⟩
  rw [LinkCall.request, accepted_readBytes hok, hn]

/-- What an idle engine holds once a call is issued: the call's bytes to send, or nothing; and how
many bytes the wait or the read that follows takes. -/
theorem LinkCall.Fits.issued_counts {call : LinkCall} (h : call.Fits) {s t : State}
    (ht : t = accepted call.request (call.prepare s)) :
    (call.hostBytes ≠ [] → t.link.lstate = .tx ∧ t.link.txptr = 0 ∧ t.link.txq = call.hostBytes) ∧
      (call.hostBytes = [] → t.link.lstate ≠ .tx) ∧
      call.takes = (match t.link.lstate with
        | .idle => 0 | .tx => 1 | .ackwait => 1 | .rx => t.link.rxn) := by
  subst ht
  cases call with
  | frame p =>
    rw [accepted_frame_call h]
    exact ⟨fun _ => ⟨rfl, rfl, rfl⟩, fun e => absurd e (List.concat_ne_nil _ _), rfl⟩
  | readn n =>
    rw [LinkCall.prepare, accepted_readn_call h]
    exact ⟨absurd rfl, fun _ => by rintro ⟨⟩, rfl⟩
  | probe | cmd c => exact ⟨fun _ => ⟨rfl, rfl, rfl⟩, by rintro ⟨⟩, rfl⟩
  | wait | read1 | flush | parity => exact ⟨absurd rfl, fun _ => by rintro ⟨⟩, rfl⟩

/-- Settles O9: each transaction call by call, and each call by what its accepting step leaves. -/
theorem transactionByteCounts : Obligations.TransactionByteCounts := by
  refine ⟨rfl, rfl, fun g v ops k => ?_, fun op l id k => ⟨rfl, ?_⟩,
    fun op a data => ⟨rfl, ?_⟩, fun op a => ⟨rfl, rfl⟩, fun op a d => ⟨?_, rfl⟩, fun op => ?_,
    fun op => ⟨rfl, rfl⟩, fun s call hi hframe hread => ?_⟩
  · cases ops with
    | nil => exact ⟨rfl, rfl⟩
    | cons b ops =>
      rw [ispGet, if_pos (by exact Nat.le_add_left 1 ops.length)]
      refine ⟨rfl, ?_⟩
      simp +arith [transactionTakes, deviceGet, LinkCall.takes]
  · simp +arith [transactionTakes, ispGetId, deviceGetId, LinkCall.takes]
  · simp +arith [transactionTakes, ispReadMem, deviceReadMem, LinkCall.takes]
  · simp +arith [transactionBytes, ispWriteMem, LinkCall.hostBytes, encFrame_length,
      writeDataPayload, encCmd, encAddr]
  · by_cases hext : op = 0x44
    · have payload : erasePayload op = massErasePayload := if_pos hext
      rw [ispErase, payload, if_pos hext]
      exact ⟨rfl, rfl⟩
    · have payload : erasePayload op = globalErasePayload := if_neg hext
      rw [ispErase, payload, if_neg hext]
      exact ⟨rfl, rfl⟩
  · have fits : call.Fits := by
      cases call with
      | frame p => exact hframe p rfl
      | readn n => exact hread n rfl
      | _ => trivial
    exact ⟨_, exec_idle (by rw [LinkCall.prepare_lstate]; exact hi) _, fits.issued_counts rfl⟩

end Sys2Proof.Machine

/-! ### A request word at an idle block (40_link_ops.md R163) -/

namespace Sys2Proof.Machine

/-- A write to `REQ` with the port free makes the request. -/
theorem regWrite_req {s : State} (v : Word) (hi : s.link.lstate = .idle)
    (hb : s.seq.sbusy = false) : regWrite 0 v s = request v s := by
  simp only [regWrite, regOfNum, clientLocked_eq_false.2 ⟨hi, hb⟩]
  rfl

theorem request_of_decoded {s : State} {v : Word} {i : Instr}
    (h : decodeReq s.cfg.seqPresent v = .ok i) : request v s = exec i s := by
  simp only [request, h]

theorem request_of_reserved {s : State} {v : Word} {e : BadWord}
    (h : decodeReq s.cfg.seqPresent v = .error e) : request v s = .next (s.badRequest v) := by
  simp only [request, h]

/-- Settles O31: the turn is a free client's write to `REQ`. -/
theorem stepRunsTheRequest : Obligations.StepRunsTheRequest := by
  intro s v rest hl hi hb ht
  have taken : step s = request v { s with turns := rest } :=
    (step_of_turn hl ht).trans (regWrite_req (s := { s with turns := rest }) v hi hb)
  rw [taken]
  exact ⟨fun i hd => request_of_decoded hd, fun e hd => ⟨v, request_of_reserved hd⟩⟩

end Sys2Proof.Machine

/-! ### Operations on a silent channel (70_reset_and_hazards.md R411) -/

namespace Sys2Proof.Machine

/-- The request word of a well-formed operation, written by a client to an idle block. -/
theorem runs_request {s : State} {v : Word} (i : Instr) (hl : legalParameters s.cfg)
    (hi : s.link.lstate = .idle) (hb : s.seq.sbusy = false)
    (ht : s.turns = [.client (.regWrite 0 v)]) (hv : encode i = v)
    (hwf : i.WellFormed s.cfg.seqPresent) : Runs 1 s (accepted i { s with turns := [] }) :=
  Runs.one (step_request hl hi hb ht (decodeReq_eq_ok.2 ⟨hv, hwf⟩))

/-- `TXQ` was sent to its end, and the wait starts with `ACKB` (R164). -/
def State.sent (s : State) : State :=
  { s with
    chan := { s.chan with txlog := s.chan.txlog ++ s.link.txq }
    link := { s.link with
      txptr := s.link.txq.length, polls := s.link.ackb, lstate := .ackwait } }

theorem runs_sent {s : State} (hl : legalParameters s.cfg) (ht : s.turns = [])
    (hw : s.link.lstate = .tx) (hp : s.link.txptr = 0) (hq : s.link.txq ≠ []) :
    Runs s.link.txq.length s s.sent := by
  obtain ⟨k, hk⟩ := Nat.exists_eq_succ_of_ne_zero (List.length_eq_zero_iff.not.2 hq)
  have sent := runs_tx (k := k) hl ht hw (by rw [hp, Nat.zero_add, hk])
  rw [hp] at sent
  rw [hk]
  exact sent

/-- Every poll of the wait was spent on a tick. -/
def State.waitedOut (s : State) : State :=
  { s with
    chan := { s.chan with ticks := s.chan.ticks + s.link.polls.toNat }
    link := { s.link with polls := 0 } }

/-- Every poll of the read's budget was spent on a tick. -/
def State.readOut (s : State) : State :=
  { s with
    chan := { s.chan with ticks := s.chan.ticks + s.link.rxpolls }
    link := { s.link with rxpolls := 0 } }

/-- `TXQ` was sent and sent again `n` times without an answer; the last wait has no poll left. -/
def State.unanswered (n : Nat) (s : State) : State :=
  { s with
    chan := { s.chan with
      txlog := s.chan.txlog ++ (List.replicate (n + 1) s.link.txq).flatten
      ticks := s.chan.ticks + (n + 1) * s.link.ackb.toNat }
    link := { s.link with
      txptr := s.link.txq.length, polls := 0, attempts := s.link.attempts - n
      lstate := .ackwait } }

section
variable {s : State} (hl : legalParameters s.cfg) (ht : s.turns = []) (hf : s.chan.rxfifo = [])
include hl ht hf

theorem runs_waitedOut (hw : s.link.lstate = .ackwait) : Runs s.link.polls.toNat s s.waitedOut :=
  runs_wait hl ht hw hf rfl

/-- A wait at its last attempt on a silent channel times out after its polls (R166, R167). -/
theorem runs_wait_timeout (hw : s.link.lstate = .ackwait) (ha : s.link.attempts ≤ 1) :
    Runs (s.link.polls.toNat + 1) s (s.waitedOut.finish .timeout) := by
  have timeout := step_timeout (s := s.waitedOut) hl ht hw rfl
  rw [if_neg (by exact Nat.not_lt.2 ha)] at timeout
  exact (runs_waitedOut hl ht hf hw).trans (Runs.one timeout)

/-- One transmission on a silent channel: `TXQ` byte by byte, then a tick for each poll. -/
theorem runs_unanswered_zero (hw : s.link.lstate = .tx) (hp : s.link.txptr = 0)
    (hq : s.link.txq ≠ []) :
    Runs (s.link.txq.length + s.link.ackb.toNat) s (s.unanswered 0) := by
  have both := (runs_sent hl ht hw hp hq).trans (runs_waitedOut (s := s.sent) hl ht hf rfl)
  simpa [State.unanswered, State.waitedOut, State.sent] using both

/-- The last attempt on a silent channel times out. -/
theorem runs_last_unanswered (hw : s.link.lstate = .tx) (hp : s.link.txptr = 0)
    (hq : s.link.txq ≠ []) (ha : s.link.attempts = 1) :
    Runs (s.link.txq.length + s.link.ackb.toNat + 1) s ((s.unanswered 0).finish .timeout) := by
  have timeout := step_timeout (s := s.unanswered 0) hl ht rfl rfl
  rw [if_neg (by exact Nat.not_lt.2 (Nat.le_of_eq ha))] at timeout
  exact (runs_unanswered_zero hl ht hf hw hp hq).trans (Runs.one timeout)

/-- An attempt on a silent channel with another one left is re-issued. -/
theorem runs_reissue (hw : s.link.lstate = .tx) (hp : s.link.txptr = 0) (hq : s.link.txq ≠ [])
    (ha : 1 < s.link.attempts) :
    Runs (s.link.txq.length + s.link.ackb.toNat + 1) s (s.unanswered 0).reissue := by
  have timeout := step_timeout (s := s.unanswered 0) hl ht rfl rfl
  rw [if_pos (by exact ha)] at timeout
  exact (runs_unanswered_zero hl ht hf hw hp hq).trans (Runs.one timeout)

end

/-- A re-issue that is not answered either is one more transmission of the same bytes (R167). -/
theorem State.unanswered_reissue (n : Nat) (s : State) :
    ((s.unanswered 0).reissue.unanswered n).finish .timeout =
      (s.unanswered (n + 1)).finish .timeout := by
  simp [State.unanswered, State.reissue, State.finish, List.replicate_succ, Nat.succ_mul,
    Nat.add_assoc, Nat.add_comm s.link.ackb.toNat, Nat.sub_sub, Nat.add_comm 1]

/-- With `n + 1` attempts on a silent channel `TXQ` is sent `n + 1` times, and then it times out. -/
theorem runs_unanswered {n : Nat} {s : State} (hl : legalParameters s.cfg) (ht : s.turns = [])
    (hf : s.chan.rxfifo = []) (hw : s.link.lstate = .tx) (hp : s.link.txptr = 0)
    (hq : s.link.txq ≠ []) (ha : s.link.attempts = n + 1) :
    Runs ((n + 1) * (s.link.txq.length + s.link.ackb.toNat + 1)) s
      ((s.unanswered n).finish .timeout) := by
  induction n generalizing s with
  | zero =>
    rw [Nat.one_mul]
    exact runs_last_unanswered hl ht hf hw hp hq ha
  | succ n ih =>
    have first := runs_reissue hl ht hf hw hp hq (by omega)
    have again := ih (s := (s.unanswered 0).reissue) hl ht hf rfl rfl hq (congrArg (· - 1) ha)
    rw [State.unanswered_reissue] at again
    rw [Nat.succ_mul, Nat.add_comm]
    exact first.trans again

/-- Settles O26: one attempt. -/
theorem silentProbeTimesOut : Obligations.SilentProbeTimesOut := by
  intro s hl hi hb hf ht
  have request := runs_request .probe hl hi hb ht rfl trivial
  have silent := runs_last_unanswered (s := accepted .probe { s with turns := [] }) hl rfl hf
    rfl rfl (by rintro ⟨⟩) rfl
  rw [Nat.add_assoc 1 1, Nat.add_assoc 1]
  exact ⟨_, request.trans silent, rfl, rfl, rfl, rfl, hf, rfl,
    congrArg (s.chan.ticks + ·) (Nat.one_mul _), rfl⟩

/-- Settles O27: `CMD_ATTEMPTS` attempts. -/
theorem silentCommandUsesItsBound : Obligations.SilentCommandUsesItsBound := by
  intro s c hl hi hb hf ht
  obtain ⟨n, hn⟩ := Nat.exists_eq_succ_of_ne_zero hl.1
  have request := runs_request (.sendCmd c) hl hi hb ht rfl trivial
  have silent := runs_unanswered (n := n) (s := accepted (.sendCmd c) { s with turns := [] }) hl
    rfl hf rfl rfl (by rintro ⟨⟩) hn
  rw [hn]
  exact ⟨_, request.trans silent, rfl, rfl, rfl, rfl, rfl⟩

/-- A bounded read on a silent channel spends a tick on each poll of its budget (R168). -/
theorem runs_readOut {n : Nat} {s : State} (hl : legalParameters s.cfg) (ht : s.turns = [])
    (hf : s.chan.rxfifo = []) (hr : s.link.lstate = .rx) (hk : s.cfg.readPolls.isSome = true)
    (hn : s.link.rxpolls = n) : Runs n s s.readOut := by
  induction n generalizing s with
  | zero =>
    have same : s.readOut = s := by
      simp only [State.readOut, hn, Nat.add_zero]
      rw [← hn]
    rw [same]
    exact Runs.refl s
  | succ n ih =>
    have polled : s.tick.spendRxPoll =
        { s.tick with link := { s.link with rxpolls := s.link.rxpolls - 1 } } := if_pos hk
    have tick : step s = .next s.tick.spendRxPoll := by
      rw [step_engine hl ht (by rw [hr]; rintro ⟨⟩), engineStep_rx hr]
      exact rxStep_tick hf fun hs => absurd (hn.symm.trans hs.2) (Nat.succ_ne_zero n)
    rw [polled] at tick
    have left := Runs.cons tick (ih hl ht hf hr hk (congrArg (· - 1) hn))
    simpa [State.readOut, hn, Nat.add_assoc, Nat.add_comm 1] using left

/-- A bounded read on a silent channel times out after its budget (R168). -/
theorem runs_read_timeout {s : State} (hl : legalParameters s.cfg) (ht : s.turns = [])
    (hf : s.chan.rxfifo = []) (hr : s.link.lstate = .rx) (hk : s.cfg.readPolls.isSome = true) :
    Runs (s.link.rxpolls + 1) s (s.readOut.finish .timeout) := by
  refine (runs_readOut hl ht hf hr hk rfl).trans (Runs.one ?_)
  rw [step_engine (s := s.readOut) hl ht (by exact fun e => by cases hr.symm.trans e),
    engineStep_rx (s := s.readOut) hr]
  exact rxStep_spent hf ⟨hk, rfl⟩

/-- Settles O29: the wait and the read each use up their budget, and then time out. -/
theorem silentWaitAndReadTimeOut : Obligations.SilentWaitAndReadTimeOut := by
  intro s hl hi hb hf
  refine ⟨fun ht => ?_, fun k hk ht => ?_⟩
  · have request := runs_request .waitAck hl hi hb ht rfl trivial
    have timeout := runs_wait_timeout (s := accepted .waitAck { s with turns := [] }) hl rfl hf rfl
      (Nat.le_refl 1)
    rw [Nat.add_assoc]
    exact ⟨_, request.trans timeout, rfl, rfl, rfl, rfl, rfl⟩
  · have request := runs_request .readByte hl hi hb ht rfl trivial
    have budget : rxBudget s.cfg = k := by rw [rxBudget_eq, hk]; rfl
    have timeout := runs_read_timeout (s := accepted .readByte { s with turns := [] }) hl rfl hf rfl
      (Option.isSome_iff_exists.2 ⟨k, hk⟩)
    rw [← budget]
    exact ⟨_, request.trans timeout, rfl, rfl, rfl, fun _ => rfl, rfl, rfl⟩

end Sys2Proof.Machine

/-! ### A frame whose answer is already there (40_link_ops.md R177, R178) -/

namespace Sys2Proof.Machine

/-- A wait at its last attempt ends with the class of the byte it takes (R165, R167). -/
theorem step_last_byte {s : State} {b : Byte} {rest : List Byte} (hl : legalParameters s.cfg)
    (ht : s.turns = []) (hw : s.link.lstate = .ackwait) (hp : s.link.polls ≠ 0)
    (ha : s.link.attempts ≤ 1) (hf : s.chan.rxfifo = b :: rest) :
    step s = .next
      ((({ s with chan := { s.chan with rxfifo := rest } } : State).setLastRx b).finish
        (classify b).result) := by
  rw [step_byte hl ht hw hp hf, State.endWait_eq, if_neg fun h => Nat.not_lt.2 ha h.2]

/-- `TXQ` sent once with a byte already there: the first one ends the wait, and no tick passes. -/
theorem runs_answered {s : State} {b : Byte} {rest : List Byte} (hl : legalParameters s.cfg)
    (ht : s.turns = []) (hw : s.link.lstate = .tx) (hp : s.link.txptr = 0)
    (hq : s.link.txq ≠ []) (ha : s.link.attempts ≤ 1) (hk : s.link.ackb ≠ 0)
    (hf : s.chan.rxfifo = b :: rest) :
    Runs (s.link.txq.length + 1) s
      ((({ s.sent with chan := { s.sent.chan with rxfifo := rest } } : State).setLastRx b).finish
        (classify b).result) :=
  (runs_sent hl ht hw hp hq).trans (Runs.one (step_last_byte (s := s.sent) hl ht rfl hk ha hf))

/-- Settles O28: the request, the bytes of the frame, and the byte that was there. -/
theorem frameSentOnceAndFirstByteDecides : Obligations.FrameSentOnceAndFirstByteDecides := by
  intro s n p b rest hl hi hb h1 h257 hlen hread hlong hf ht
  have hok : Instr.frameLenOk n := ⟨h1, h257⟩
  have request := runs_request (.sendFrame n) hl hi hb ht rfl hok
  rw [accepted_sendFrame (s := { s with turns := [] }) hok (txPayload_eq_some.2 ⟨hlen, hread⟩)]
    at request
  have answered := runs_answered
    (s := (({ s with turns := [] } : State).latchRequest (.sendFrame n)).startTx (encFrame p)
      s.cfg.longPolls 1) hl rfl rfl rfl (List.concat_ne_nil _ _) (Nat.le_refl 1) hlong hf
  rw [← hlen, ← encFrame_length, Nat.add_assoc]
  exact ⟨_, request.trans answered, rfl, rfl, rfl, (List.append_assoc ..).symm, rfl, rfl,
    fun _ => rfl, rfl⟩

end Sys2Proof.Machine

/-! ### No step stops the machine (40_link_ops.md R169, 60_exceptions.md R344, R347) -/

namespace Sys2Proof.Machine

/-- A read in flight is of no more bytes than `RXBUF` holds (R111). -/
theorem readingOk.rxn_le {s : State} (h : readingOk s) : s.link.rxn ≤ Arr.rxbuf.size := by
  unfold readingOk at h
  split at h
  · rw [h]
    decide
  · exact h.2 ▸ h.1.2
  · exact h.elim

/-- A busy engine has a byte to send, or room for the byte it reads. -/
theorem engineStep_next {s : State} (h : LinkInv s) : ∃ t, engineStep s = .next t := by
  cases hl : s.link.lstate with
  | idle => exact ⟨s, by simp only [engineStep, hl]⟩
  | tx =>
    have hb := List.getElem?_eq_getElem (h.txptr_lt hl)
    exact ⟨_, by simp only [engineStep, hl, txStep, hb]; rfl⟩
  | ackwait => exact ⟨_, engineStep_ackwait hl⟩
  | rx =>
    rw [engineStep_rx hl]
    obtain ⟨hread, hlt⟩ := h.reading hl
    have room : s.link.rxcnt < Arr.rxbuf.size := Nat.lt_of_lt_of_le hlt hread.rxn_le
    obtain ⟨-, e⟩ | ⟨_, _, -, -, e⟩ | ⟨-, e⟩ | ⟨hfull, -⟩ := rxStep_cases s
    · exact ⟨_, e⟩
    · exact ⟨_, e⟩
    · exact ⟨_, e⟩
    · exact absurd room (Nat.not_lt.2 hfull)

theorem withCt_answers {i : Nat} {s : State} {k : Byte → Host.Outcome State Fault Refusal}
    (h : ∀ op, ∃ t, k op = .next t) : ∃ t, withCt i s k = .next t := by
  unfold withCt
  split
  · exact h _
  · exact ⟨_, rfl⟩

theorem withReply_answers {n : Nat} {s : State} {k : List Byte → Host.Outcome State Fault Refusal}
    (h : ∀ bs, ∃ t, k bs = .next t) : ∃ t, withReply n s k = .next t := by
  unfold withReply
  split
  · exact h _
  · exact ⟨_, rfl⟩

theorem withCount_answers {s : State} {k : Nat → Host.Outcome State Fault Refusal}
    (h : ∀ n, ∃ t, k n = .next t) : ∃ t, withCount s k = .next t := by
  unfold withCount
  split
  · exact h _
  · exact ⟨_, rfl⟩

theorem callAt_answers (k : Nat) (call : LinkCall) (s : State) : ∃ t, callAt k call s = .next t :=
  exec_next _ _

/-- A transaction has a call for each of its positions. -/
theorem runTransaction_answers {tr : List LinkCall} {s : State} (a b : State)
    (h : s.seq.sub ≤ tr.length) : ∃ t, runTransaction tr s a b = .next t := by
  unfold runTransaction
  obtain ⟨hlt, -⟩ | ⟨-, -, -, e⟩ | ⟨c, -, -, e⟩ | ⟨-, -, e⟩ :=
    progress_cases tr s.seq.sub s.resultOk
  · exact absurd h (Nat.not_le.2 hlt)
  · exact ⟨a, by rw [e]⟩
  · rw [e]
    exact callAt_answers ..
  · exact ⟨b, by rw [e]⟩

theorem probeStep_answers {s : State} (h : s.seq.sub ≤ 2) : ∃ t, probeStep s = .next t := by
  unfold probeStep
  split
  · exact callAt_answers ..
  · exact callAt_answers ..
  · split <;> exact ⟨_, rfl⟩
  next h0 h1 h2 =>
    simp only [imp_false] at h0 h1 h2
    omega

theorem identifyStep_answers {s : State} (h : s.seq.sub ≤ 9) : ∃ t, identifyStep s = .next t := by
  unfold identifyStep
  split
  · exact callAt_answers ..
  rw [if_neg (Nat.not_lt.2 h)]
  split
  · exact ⟨_, rfl⟩
  split
  · exact callAt_answers ..
  · refine withReply_answers fun bs => ?_
    dsimp only
    split
    · exact callAt_answers ..
    · exact ⟨_, rfl⟩
  · refine withReply_answers fun bs => withCount_answers fun n => ?_
    split <;> exact callAt_answers ..
  · exact withCount_answers fun n => withReply_answers fun bs => callAt_answers ..
  · exact withCt_answers fun op => callAt_answers ..
  · exact callAt_answers ..
  · refine withReply_answers fun bs => ?_
    dsimp only
    split
    · exact callAt_answers ..
    · exact ⟨_, rfl⟩
  · exact withReply_answers fun bs => callAt_answers ..
  · exact ⟨_, rfl⟩

theorem flashSizeStep_answers {s : State} (h : s.seq.sub ≤ 4) : ∃ t, flashSizeStep s = .next t := by
  refine withCt_answers fun op => ?_
  obtain ⟨hlt, -⟩ | ⟨-, -, -, e⟩ | ⟨c, -, -, e⟩ | ⟨-, -, e⟩ :=
    progress_cases (ispReadMem op Config.flashSizeAddr 2) s.seq.sub s.resultOk
  · exact absurd h (Nat.not_le.2 hlt)
  · exact ⟨s.flashSizeFailed, by simp only [e]⟩
  · simp only [e]
    exact callAt_answers ..
  · simp only [e]
    exact withReply_answers fun bs => ⟨_, rfl⟩

theorem pullStep_answers (s : State) : ∃ t, pullStep s = .next t := by
  unfold pullStep
  split
  case h_2 => split <;> exact ⟨_, rfl⟩
  all_goals exact ⟨_, rfl⟩

theorem programStep_answers {s : State} (h : s.seq.sub ≤ 3)
    (hpage : s.seq.sub ≠ 0 → s.seq.latch.isSome) : ∃ t, programStep s = .next t := by
  unfold programStep
  split
  next hnone =>
    have first : s.seq.sub = 0 := by
      by_contra hne
      simpa [hnone] using hpage hne
    rw [if_pos first]
    exact pullStep_answers s
  · exact withCt_answers fun op => runTransaction_answers _ _ h

theorem goStep_answers {s : State} (h : s.seq.sub ≤ 2) : ∃ t, goStep s = .next t := by
  unfold goStep
  split
  · exact ⟨_, rfl⟩
  · exact withCt_answers fun op => runTransaction_answers _ _ h

/-- A running session is at a position of its step, and every position has its move. -/
theorem RunningInv.seqStep_answers {s : State} (h : RunningInv s) : ∃ t, seqStep s = .next t := by
  have hsub := h.sub_le
  unfold seqStep
  cases hst : s.seq.step <;> rw [hst] at hsub
  case probe => exact probeStep_answers hsub
  case identify => exact identifyStep_answers hsub
  case flashSize => exact flashSizeStep_answers hsub
  case unprotect => exact withCt_answers fun op => runTransaction_answers _ _ hsub
  case erase => exact withCt_answers fun op => runTransaction_answers _ _ hsub
  case program => exact programStep_answers hsub (h.latched hst)
  case go => exact goStep_answers hsub
  case none => exact absurd hst h.step_run.1
  case done => exact absurd hst h.step_run.2

theorem advance_next {s : State} (h : s.Inv) : ∃ t, advance s = .next t := by
  by_cases hi : s.link.lstate = .idle
  · cases hs : s.seq.sbusy with
    | true => exact advance_of_session hi hs ▸ (h.session.running hs).seqStep_answers
    | false => exact ⟨s, advance_of_rest hi hs⟩
  · exact advance_of_busy hi ▸ engineStep_next h.engine

/-- Settles O34: every turn answers a next state, and so does the block's own move. -/
theorem theMachineNeverStops : Obligations.TheMachineNeverStops := by
  intro s h hl
  cases hts : s.turns with
  | nil => exact step_of_no_turn hl hts ▸ advance_next h
  | cons tn rest =>
    cases tn with
    | run => exact step_of_turn hl hts ▸ advance_next (h.withTurns rest)
    | client a => exact step_of_turn hl hts ▸ access_next a _
    | waitIdle =>
      by_cases hi : s.link.lstate = .idle
      · exact ⟨_, step_of_wait_idle hl hts hi⟩
      · exact step_of_wait_busy hl hts hi ▸ engineStep_next h.engine
    | device b => exact ⟨_, step_of_turn hl hts⟩
    | source it => exact ⟨_, step_of_turn hl hts⟩
    | reset => exact ⟨_, step_of_turn hl hts⟩

end Sys2Proof.Machine

/-! ### The Sequencer's procedures by position (46_sequencer.md R286 to R305) -/

namespace Sys2Proof.Machine

/-! #### Where a transaction stands (45_isp_transactions.md R230) -/

section
variable {s a b : State} {tr : List LinkCall} {call : LinkCall} {k : Nat}

theorem State.resultOk_eq_true (h : s.link.result = .ok) : s.resultOk = true :=
  decide_eq_true h

theorem State.resultOk_eq_false (h : s.link.result ≠ .ok) : s.resultOk = false :=
  decide_eq_false h

/-- The first call is issued whatever the operation before it gave. -/
theorem progress_first (h : s.seq.sub = 0) :
    progress (call :: tr) s.seq.sub s.resultOk = .issue call := by
  simp [progress, h]

theorem progress_next (h : s.seq.sub = k) (hok : s.link.result = .ok) (hc : tr[k]? = some call) :
    progress tr s.seq.sub s.resultOk = .issue call := by
  obtain ⟨hk, -⟩ := List.getElem?_eq_some_iff.1 hc
  simp [progress, h, hc, State.resultOk_eq_true hok, hk.le]

theorem progress_failed (h1 : 1 ≤ s.seq.sub) (h2 : s.seq.sub ≤ tr.length)
    (hne : s.link.result ≠ .ok) : progress tr s.seq.sub s.resultOk = .failed := by
  simp [progress, State.resultOk_eq_false hne, h2, Nat.lt_of_succ_le h1]

theorem progress_done (h : s.seq.sub = tr.length) (hok : s.link.result = .ok) :
    progress tr s.seq.sub s.resultOk = .succeeded := by
  simp [progress, h, State.resultOk_eq_true hok]

theorem runTransaction_first (h : s.seq.sub = 0) :
    runTransaction (call :: tr) s a b = callAt 1 call s := by
  rw [runTransaction, progress_first h, h]

theorem runTransaction_call (h : s.seq.sub = k) (hok : s.link.result = .ok)
    (hc : tr[k]? = some call) : runTransaction tr s a b = callAt (k + 1) call s := by
  rw [runTransaction, progress_next h hok hc, h]

theorem runTransaction_failed (h1 : 1 ≤ s.seq.sub) (h2 : s.seq.sub ≤ tr.length)
    (hne : s.link.result ≠ .ok) : runTransaction tr s a b = .next a := by
  simp only [runTransaction, progress_failed h1 h2 hne]

theorem runTransaction_done (h : s.seq.sub = tr.length) (hok : s.link.result = .ok) :
    runTransaction tr s a b = .next b := by
  simp only [runTransaction, progress_done h hok]

end

/-! #### The frames a procedure sends -/

/-- `TXBUF` once a payload is written into it (R282). -/
theorem Memory.read_writeList_zero (m : Memory) (p : List Byte) (k : Nat) :
    (m.writeList 0 p).read k = if k < p.length then p[k]? else m.read k := by
  simp [Memory.read_writeList]

/-- The address frame, the second call of every transaction that has one. -/
theorem addressFrame_issued (a : Word) (s : State) : ∃ m : Memory,
    (∀ k, m.read k = if k < 4 then (encAddr a)[k]? else s.link.txbuf.read k) ∧
    callAt 2 (.frame (encAddr a)) s = exec (.sendFrame 4) { s with
      link := { s.link with txbuf := m }, seq := { s.seq with sub := 2 } } :=
  ⟨s.link.txbuf.writeList 0 (encAddr a), Memory.read_writeList_zero _ _, rfl⟩

/-! #### Steps PROBE and IDENTIFY, and the failed attempt -/

/-- Settles O46: the two ends of a failed attempt, with the count as a number. -/
theorem failedAttemptIsCounted : Obligations.FailedAttemptIsCounted := by
  intro s st a
  obtain ⟨w, n, hcount, hredo, hfail⟩ := State.stepFail_cases st a s
  refine ⟨w, n, fun hne => ?_, hfail, hredo⟩
  obtain ⟨rfl, hn⟩ := hcount hne
  exact ⟨word_add_one_toNat hne, hn⟩

theorem seqStep_of_probe {s : State} (h : s.seq.step = .probe) : seqStep s = probeStep s := by
  simp only [seqStep, h]

/-- The result of a probe decides (R289). -/
theorem probeStep_result {s : State} (h : s.seq.sub = 2) : probeStep s =
    if s.resultOk then .next ((s.enter .handshaking).startStep .identify)
    else .next s.probeFailed := by
  simp only [probeStep, h]

theorem State.probeFailed_below {s : State}
    (h : ∀ k, s.cfg.probeLimit = some k → s.seq.probes + 1 < k) :
    s.probeFailed = { s with seq := { s.seq with probes := s.seq.probes + 1, sub := 1 } } := by
  unfold State.probeFailed
  cases hk : s.cfg.probeLimit with
  | none => rfl
  | some k => exact if_neg (Nat.not_le.2 (h k hk))

theorem State.probeFailed_limit {s : State} {k : Nat} (hk : s.cfg.probeLimit = some k)
    (h : k ≤ s.seq.probes + 1) :
    s.probeFailed = { s with
      seq := { s.seq with
        probes := s.seq.probes + 1, sstate := .failed, failStep := .probe
        failResult := s.link.result, failAddr := 0, sdone := true, sbusy := false
        step := .done } } := by
  unfold State.probeFailed
  rw [hk]
  exact if_pos h

/-- Settles O47: a call at the first two positions, then the result of the probe. -/
theorem probeStepProcedure : Obligations.ProbeStepProcedure := by
  intro s _ hst
  rw [seqStep_of_probe hst]
  have failed : s.seq.sub = 2 → s.link.result ≠ .ok → probeStep s = .next s.probeFailed :=
    fun h2 hne => by rw [probeStep_result h2, State.resultOk_eq_false hne]; rfl
  refine ⟨fun h0 => ?_, fun h1 => ?_, fun h2 hok => ?_, fun h2 hne hlt => ?_,
    fun k h2 hne hk hle => ?_⟩
  · simp only [probeStep, h0]
    rfl
  · simp only [probeStep, h1]
    rfl
  · rw [probeStep_result h2, State.resultOk_eq_true hok]
    rfl
  · rw [failed h2 hne, State.probeFailed_below hlt]
  · rw [failed h2 hne, State.probeFailed_limit hk hle]

/-- A failed operation of `IDENTIFY` is a failed attempt, wherever it stands (R291). -/
theorem identifyStep_failed {s : State} (h1 : 1 ≤ s.seq.sub) (h9 : s.seq.sub ≤ 9)
    (hne : s.link.result ≠ .ok) : identifyStep s = .next (s.stepFail .identify 0) := by
  rw [identifyStep, if_neg (Nat.one_le_iff_ne_zero.1 h1), if_neg (Nat.not_lt.2 h9),
    if_pos (State.resultOk_eq_false hne)]

/-- Settles O50: a failed operation at any position; a bad count or length once it is stored. -/
theorem identifyFailures : Obligations.IdentifyFailures := by
  intro s _ hst
  refine ⟨fun h1 h9 hne => ?_, fun n h2 hok hn hbig => ?_, fun l h7 hok hl hbad => ?_⟩
  · rw [seqStep_of_identify hst, identifyStep_failed h1 h9 hne]
  · refine ⟨s.seq.ct.writeList 0 [n], Memory.read_write_same ..,
      fun k => Memory.read_write_ne _ n, ?_⟩
    have e : seqStep s = .next ((s.storeCt 0 [n]).raise .ctOverflow) := by
      rw [seqStep_identify_two hst hok h2, identifyCount, withReply_found (readRange_one hn)]
      exact if_neg (Nat.not_le.2 hbig)
    exact e ▸ recordsFault_raise _ _
  · have e : seqStep s = .next ((s.setIdLen l).raise .idBad) := by
      rw [seqStep_identify_seven hst hok h7, identifyIdLen, withReply_found (readRange_one hl)]
      refine if_neg fun ⟨h1, h256⟩ => ?_
      exact hbad.elim (Nat.not_lt.2 h1) (Nat.not_lt.2 h256)
    exact e ▸ recordsFault_raise _ _

/-! #### Steps FLASH_SIZE, UNPROTECT and ERASE -/

section
variable {s : State} {op : Byte} {call : LinkCall}
variable (hst : s.seq.step = .flashSize) (hv : s.seq.ctValid.getLsbD 5 = true)
  (hop : s.seq.ct.read 5 = some op)
include hst hv hop

theorem seqStep_flashSize_call {k : Nat} (h : s.seq.sub = k)
    (hp : progress (ispReadMem op Config.flashSizeAddr 2) s.seq.sub s.resultOk = .issue call) :
    seqStep s = callAt (k + 1) call s := by
  simp only [seqStep, hst, flashSizeStep, withCt_filled hv hop, hp, ← h]

theorem seqStep_flashSize_failed (h1 : 1 ≤ s.seq.sub) (h4 : s.seq.sub ≤ 4)
    (hne : s.link.result ≠ .ok) : seqStep s = .next s.flashSizeFailed := by
  have hp : progress (ispReadMem op Config.flashSizeAddr 2) s.seq.sub s.resultOk = .failed :=
    progress_failed h1 h4 hne
  simp only [seqStep, hst, flashSizeStep, withCt_filled hv hop, hp]

theorem seqStep_flashSize_done {bs : List Byte} (h : s.seq.sub = 4) (hok : s.link.result = .ok)
    (hbs : s.link.rxbuf.readRange 0 2 = some bs) : seqStep s = .next (s.flashSizeKnown bs) := by
  have hp : progress (ispReadMem op Config.flashSizeAddr 2) s.seq.sub s.resultOk = .succeeded :=
    progress_done h hok
  simp only [seqStep, hst, flashSizeStep, withCt_filled hv hop, hp, withReply_found hbs]

end

theorem encAddr_flashSizeAddr : encAddr Config.flashSizeAddr = [0x1F, 0xFF, 0xF7, 0xE0] := by
  decide

/-- Two bytes have come. -/
theorem readRange_two {m : Memory} {b0 b1 : Byte} (h0 : m.read 0 = some b0)
    (h1 : m.read 1 = some b1) : m.readRange 0 2 = some [b0, b1] := by
  simp [Memory.readRange, h0, h1]

/-- Settles O51: the transaction call by call; its failure by whether it was the command pair's. -/
theorem flashSizeProcedure : Obligations.FlashSizeProcedure := by
  intro s op _ hst hv hop
  obtain ⟨-, flashKB_toNat, -⟩ := byteOrderOfValues
  refine ⟨fun h0 => ?_, fun h1 hok => ?_, fun h2 hok => ?_, fun h3 hok => ?_,
    fun r0 r1 h4 hok hr0 hr1 => ⟨flashKB r0 r1, flashKB_toNat r0 r1, ?_⟩, fun h1 hne => ?_,
    fun h2 h4 hne => ?_⟩
  · exact seqStep_flashSize_call hst hv hop h0 (progress_first h0)
  · rw [seqStep_flashSize_call hst hv hop h1 (progress_next h1 hok rfl), ← encAddr_flashSizeAddr]
    exact addressFrame_issued Config.flashSizeAddr s
  · rw [seqStep_flashSize_call hst hv hop h2 (progress_next h2 hok rfl)]
    exact ⟨s.link.txbuf.write 0 0x01, fun k => Memory.read_write _ 0 k _, rfl⟩
  · exact seqStep_flashSize_call hst hv hop h3 (progress_next h3 hok rfl)
  · exact seqStep_flashSize_done hst hv hop h4 hok (readRange_two hr0 hr1)
  · rw [seqStep_flashSize_failed hst hv hop h1.ge (by omega) hne, State.flashSizeFailed, if_pos h1]
    rfl
  · rw [seqStep_flashSize_failed hst hv hop (by omega) h4 hne, State.flashSizeFailed,
      if_neg (by omega)]
    rfl

/-- Settles O52: the one call of the transaction, and the restart by the limit. -/
theorem unprotectAndRestart : Obligations.UnprotectAndRestart := by
  intro s op _ hst hv hop
  have run : seqStep s =
      runTransaction (ispRdUnp op) s (s.stepFail .unprotect 0) s.restart := by
    simp only [seqStep, hst, unprotectStep, withCt_filled hv hop]
  rw [run]
  refine ⟨fun h0 => runTransaction_first h0, fun h1 hne => runTransaction_failed h1.ge h1.le hne,
    fun h1 hok => ?_⟩
  obtain ⟨w, n, hcount, hagain, hfail⟩ := s.restart_cases
  rw [runTransaction_done h1 hok]
  refine ⟨w, n, fun hne => ?_, fun hle => congrArg _ (hagain hle),
    fun k hk hlt => congrArg _ (hfail k hk hlt)⟩
  obtain ⟨rfl, hn⟩ := hcount hne
  exact ⟨word_add_one_toNat hne, hn⟩

theorem erasePayload_cases (op : Byte) :
    (op = 0x44 ∧ erasePayload op = [0xFF, 0xFF]) ∨ (op ≠ 0x44 ∧ erasePayload op = [0xFF]) := by
  by_cases h : op = 0x44
  · exact .inl ⟨h, if_pos h⟩
  · exact .inr ⟨h, if_neg h⟩

/-- `TXBUF` once the erase payload of an opcode is written into it (30_encoding.md R141). -/
theorem read_writeList_erasePayload (m : Memory) (op : Byte) (k : Nat) :
    (m.writeList 0 (erasePayload op)).read k =
      if k = 0 ∨ (k = 1 ∧ op = 0x44) then some 0xFF else m.read k := by
  obtain ⟨h, hp⟩ | ⟨h, hp⟩ := erasePayload_cases op <;> rw [hp] <;>
    simp only [h, Memory.writeList, Memory.read_write]
  · by_cases h1 : k = 1 <;> simp [h1]
  · simp

theorem lenField_erasePayload (op : Byte) :
    lenField (erasePayload op).length = if op = 0x44 then 2 else 1 := by
  obtain ⟨h, hp⟩ | ⟨h, hp⟩ := erasePayload_cases op <;> simp only [hp, h] <;> rfl

/-- Settles O53: the transaction call by call, its frame by the opcode. -/
theorem eraseFormByOpcode : Obligations.EraseFormByOpcode := by
  intro s op _ hst hv hop
  have run : seqStep s = runTransaction (ispErase op) s (s.stepFail .erase 0)
      ((s.enter .erased).startStep .program) := by
    simp only [seqStep, hst, eraseStep, withCt_filled hv hop]
  rw [run]
  refine ⟨fun h0 => runTransaction_first h0, fun h1 hok => ?_,
    fun h2 hok => runTransaction_done h2 hok, fun h1 h2 hne => runTransaction_failed h1 h2 hne⟩
  rw [runTransaction_call h1 hok rfl, ← lenField_erasePayload]
  exact ⟨_, read_writeList_erasePayload s.link.txbuf op, rfl⟩

/-! #### Steps PROGRAM and GO -/

/-- Settles O54: the pull item by item. -/
theorem pageSourcePull : Obligations.PageSourcePull := by
  intro s rest _ hst h0 hnone
  have pull : seqStep s = pullStep s := by simp only [seqStep, hst, programStep, hnone, if_pos h0]
  rw [pull]
  refine ⟨fun b d hs h1 h256 => ?_, fun b d hs hbad => ?_, fun hs => ?_, fun a hs => ?_,
    fun hs => ?_, fun hs => ?_⟩ <;> simp only [pullStep, hs]
  · exact if_pos ⟨h1, h256⟩
  · rw [if_neg fun ⟨h1, h256⟩ => hbad.elim (Nat.not_lt.2 h1) (Nat.not_lt.2 h256)]
    exact recordsFault_raise _ _
  · rfl
  · rfl
  · rfl

/-- A failed attempt touches neither the page latch nor the page source (R303). -/
theorem State.stepFail_page (st : FailStep) (a : Word) (s : State) :
    (s.stepFail st a).seq.latch = s.seq.latch ∧ (s.stepFail st a).source = s.source := by
  obtain ⟨w, n, e | e⟩ := State.stepFail_outcome st a s <;> rw [e] <;> exact ⟨rfl, rfl⟩

/-- Settles O55: the transaction call by call, its data frame with the length byte first. -/
theorem pageWriteProcedure : Obligations.PageWriteProcedure := by
  intro s op pg _ hst hpg _ hle hv hop
  have run : seqStep s = runTransaction (ispWriteMem op pg.base pg.data) s
      (s.stepFail .pageWrite pg.base) s.pageWritten := by
    simp only [seqStep, hst, programStep, hpg, withCt_filled hv hop]
  obtain ⟨hlatch, hsource⟩ := State.stepFail_page .pageWrite pg.base s
  rw [run]
  refine ⟨fun h0 => runTransaction_first h0, fun h1 hok => ?_, fun h2 hok => ?_,
    fun h3 hok => runTransaction_done h3 hok,
    fun h1 h3 hne => ⟨runTransaction_failed h1 h3 hne, hlatch.trans hpg, hsource⟩⟩
  · rw [runTransaction_call h1 hok rfl]
    exact addressFrame_issued pg.base s
  · rw [runTransaction_call h2 hok rfl]
    have hread := Memory.read_writeList_zero s.link.txbuf (writeDataPayload pg.data)
    have hlen : (writeDataPayload pg.data).length = pg.data.length + 1 := rfl
    refine ⟨s.link.txbuf.writeList 0 (writeDataPayload pg.data), lenField (pg.data.length + 1),
      lenField_toNat (by omega), ⟨lenByte pg.data.length, ?_, ?_⟩, fun i hi => ?_,
      fun k hk => ?_, rfl⟩
    · rw [hread, if_pos (by omega)]
      rfl
    · rw [lenByte_toNat hle]
      omega
    · rw [hread, if_pos (by omega)]
      rfl
    · rw [hread, if_neg (by omega)]

/-- Settles O56: the end without an entry point, else the transaction call by call. -/
theorem goStepProcedure : Obligations.GoStepProcedure := by
  intro s _ hst
  refine ⟨fun hnone => ?_, fun op hstart hv hop => ?_⟩
  · simp only [seqStep, hst, goStep, if_pos hnone]
    rfl
  · have run : seqStep s = runTransaction (ispGo op s.seq.startAddr) s
        (s.stepFail .go s.seq.startAddr) s.jumped := by
      simp only [seqStep, hst, goStep, hstart, withCt_filled hv hop]
      rfl
    rw [run]
    refine ⟨fun h0 => runTransaction_first h0, fun h1 hok => ?_,
      fun h2 hok => runTransaction_done h2 hok, fun h1 h2 hne => runTransaction_failed h1 h2 hne⟩
    rw [runTransaction_call h1 hok rfl]
    exact addressFrame_issued s.seq.startAddr s

/-! #### What the Sequencer leaves alone, and how a session ends -/

@[simp] theorem LinkCall.prepare_chan (call : LinkCall) (s : State) :
    (call.prepare s).chan = s.chan := by cases call <;> rfl

@[simp] theorem LinkCall.prepare_turns (call : LinkCall) (s : State) :
    (call.prepare s).turns = s.turns := by cases call <;> rfl

@[simp] theorem LinkCall.prepare_portOut (call : LinkCall) (s : State) :
    (call.prepare s).portOut = s.portOut := by cases call <;> rfl

theorem LinkCall.request_eq_flushRx {call : LinkCall} :
    call.request = .flushRx ↔ call = .flush := by
  cases call <;> simp [LinkCall.request]

theorem LinkCall.request_eq_setEvenParity {call : LinkCall} :
    call.request = .setEvenParity ↔ call = .parity := by
  cases call <;> simp [LinkCall.request]

/-- Settles O58: a call leaves the channel alone but for the flush, and no other move touches it. -/
theorem sequencerWorksThroughOperations : Obligations.SequencerWorksThroughOperations := by
  intro s t hi h
  cases seqStep_move hi h with
  | quiet q f n src _ => exact ⟨rfl, rfl, rfl, .inl rfl, rfl, rfl, rfl⟩
  | call call q hpar hflush =>
    obtain ⟨hcfg, hlog, hticks, -, -, -, -, -, hturns, hport, -⟩ :=
      accepted_frame call.request (call.prepare { s with seq := q })
    obtain ⟨hfifo, hparity, -, hempty⟩ :=
      accepted_only call.request (call.prepare { s with seq := q })
    obtain ⟨hchpar, -⟩ := hparity fun e => hpar (LinkCall.request_eq_setEvenParity.1 e)
    simp only [LinkCall.prepare_cfg, LinkCall.prepare_chan, LinkCall.prepare_turns,
      LinkCall.prepare_portOut] at hcfg hlog hticks hturns hport hfifo hchpar hempty
    refine ⟨hlog, hticks, hchpar, ?_, hcfg, hturns, hport⟩
    by_cases hf : call = .flush
    · exact hempty.imp_right fun he => ⟨he, hflush hf⟩
    · exact .inl (hfifo fun e => hf (LinkCall.request_eq_flushRx.1 e))

/-- A step other than the reset event leaves a running session as it is, or it is the Sequencer's, which
leaves the session in a step. -/
theorem step_seq_or_started {s t : State} (h : step s = .next t) (hne : s.turns.head? ≠ some .reset)
    (hr : s.seq.sbusy = true) : t.seq = s.seq ∨ t.seq.step ≠ .none := by
  cases step_move h with
  | engine ts _ _ e =>
    left
    rw [(engineStep_frame e).1]
  | sequencer ts _ hi _ e => exact .inr (seqStep_started (s := { s with turns := ts }) hi e)
  | client a ts _ e =>
    left
    cases access_move e with
    | fault r => simp
    | request i _ hf => exact absurd hr (by rw [hf]; decide)
    | _ => rfl
  | reset ts ht => exact absurd (by rw [ht]; rfl) hne
  | _ => exact .inl rfl

/-- Settles O60: the step keeps the invariant, under which a session that stopped and has a step is
done, and a done session has one of the outcomes. -/
theorem sessionEndsInOneOfThree : Obligations.SessionEndsInOneOfThree := by
  intro s t h e hne hr hs
  have ht : SessionInv t := (everyStepKeepsTheInvariant s t h e).session
  have hstarted : t.seq.step ≠ .none := by
    obtain hq | hst := step_seq_or_started e hne hr
    · rw [hq, hr] at hs
      cases hs
    · exact hst
  have hdone : t.seq.step = .done := (ht.stopped hs).resolve_left hstarted
  exact ⟨ht.done_iff.2 hdone, ht.outcome hdone⟩

end Sys2Proof.Machine

/-! ### Which runs are refused (60_exceptions.md R346) -/

namespace Sys2Proof.Machine

/-- What R346 excludes, in the spelling of `legalParameters`. -/
theorem not_legalParameters_iff {c : Config} : ¬ legalParameters c ↔
    c.cmdAttempts = 0 ∨ c.stepRetryLimit = some 0 ∨ c.probeLimit = some 0 := by
  simp only [legalParameters, not_and_or, not_not]

theorem step_of_illegal {s : State} (h : ¬ legalParameters s.cfg) :
    step s = .refused .illegalParameter := if_neg h

theorem next_not_refused {o : Host.Outcome State Fault Refusal} (h : ∃ t, o = .next t) (r : Refusal) :
    o ≠ .refused r := by
  obtain ⟨t, rfl⟩ := h
  rintro ⟨⟩

theorem advance_not_refused (s : State) (r : Refusal) : advance s ≠ .refused r := by
  by_cases hi : s.link.lstate = .idle
  · cases hs : s.seq.sbusy with
    | true => exact advance_of_session hi hs ▸ seqStep_not_refused s r
    | false => exact next_not_refused ⟨s, advance_of_rest hi hs⟩ r
  · exact advance_of_busy hi ▸ engineStep_not_refused s r

/-- Unlike `theMachineNeverStops` this needs no invariant: an unreachable state may stop the machine with
a fault, and still nothing is refused. -/
theorem step_not_refused {s : State} (hl : legalParameters s.cfg) (r : Refusal) :
    step s ≠ .refused r := by
  cases hts : s.turns with
  | nil => exact step_of_no_turn hl hts ▸ advance_not_refused s r
  | cons tn rest =>
    cases tn with
    | run => exact step_of_turn hl hts ▸ advance_not_refused _ r
    | client a => exact step_of_turn hl hts ▸ next_not_refused (access_next a _) r
    | waitIdle =>
      by_cases hi : s.link.lstate = .idle
      · exact next_not_refused ⟨_, step_of_wait_idle hl hts hi⟩ r
      · exact step_of_wait_busy hl hts hi ▸ engineStep_not_refused s r
    | device b => exact next_not_refused ⟨_, step_of_turn hl hts⟩ r
    | source it => exact next_not_refused ⟨_, step_of_turn hl hts⟩ r
    | reset => exact next_not_refused ⟨_, step_of_turn hl hts⟩ r

/-- Settles O35: the guard of `step` refuses, and with legal parameters no move does. -/
theorem excludedParametersRefused : Obligations.ExcludedParametersRefused := by
  intro s
  refine ⟨fun h => step_of_illegal (not_legalParameters_iff.2 h), fun r h => ?_⟩
  exact not_legalParameters_iff.1 fun hl => step_not_refused hl r h

end Sys2Proof.Machine

/-! ### The reset event (70_reset_and_hazards.md R380) -/

namespace Sys2Proof.Machine

@[simp] theorem statusWord_resetEvent (s : State) : statusWord s.resetEvent = 0 := by
  simp [statusWord, State.busy, Link.reset, ResultCode.code]

@[simp] theorem seqStatusWord_resetEvent (s : State) : seqStatusWord s.resetEvent = 0 := by
  simp [seqStatusWord, Session.reset, SessionState.code, FailStep.code, ResultCode.code]

theorem step_of_reset {s : State} {rest : List Turn} (hl : legalParameters s.cfg)
    (ht : s.turns = .reset :: rest) :
    step s = .next ({ s with turns := rest } : State).resetEvent :=
  step_of_turn hl ht

/-- Settles O38: the step answers `resetEvent`, whose engine is `Link.reset` and whose session is
`Session.reset`; every item reads off those two records, everything else off the state before. -/
theorem resetEventEffect : Obligations.ResetEventEffect := by
  intro s rest hl ht
  exact ⟨_, step_of_reset hl ht, by simp [Link.reset, Session.reset]⟩

end Sys2Proof.Machine

/-! ### What a client writes at the port (10_state.md R35, R42) -/

namespace Sys2Proof.Machine

theorem regWrite_locked {s : State} {n : Nat} (v : Word) (h : s.clientLocked = true)
    (hn : n = 0 ∨ n = 1) : access (.regWrite n v) s = .next (s.raise .clientBusyWrite) := by
  obtain rfl | rfl := hn
  · exact if_pos h
  · exact if_pos h

theorem regWrite_budget {s : State} (v : Word) (h : s.clientLocked = false) :
    access (.regWrite 1 v) s = .next (s.setBudget v) :=
  if_neg (Bool.eq_false_iff.1 h)

/-- A write inside `TXBUF` passes the bounds check and meets the busy rule. -/
theorem arrWrite_txbuf {s : State} {i : Nat} (b : Byte) (hi : i < 257) :
    access (.arrWrite .txbuf i b) s =
      .next (if s.clientLocked then s.raise .clientBusyWrite else s.writeTxbuf i b) :=
  congrArg _ (if_pos ⟨rfl, hi⟩)

theorem arrWrite_txbuf_locked {s : State} {i : Nat} (b : Byte) (h : s.clientLocked = true)
    (hi : i < 257) : access (.arrWrite .txbuf i b) s = .next (s.raise .clientBusyWrite) := by
  rw [arrWrite_txbuf b hi, if_pos h]

theorem arrWrite_txbuf_free {s : State} {i : Nat} (b : Byte) (h : s.clientLocked = false)
    (hi : i < 257) : access (.arrWrite .txbuf i b) s = .next (s.writeTxbuf i b) := by
  rw [arrWrite_txbuf b hi, if_neg (Bool.eq_false_iff.1 h)]

/-- Settles O42: a locked port raises `CLIENT_BUSY_WRITE` at each of the three writes; a free one
stores, and the store to `TXBUF` is `Memory.write`, which keeps every other element. -/
theorem clientWrites : Obligations.ClientWrites := by
  intro s
  constructor
  · intro hbusy
    have locked := clientLocked_eq_true.2 hbusy
    refine ⟨fun v => ?_, fun v => ?_, fun i b hi => ?_⟩
    · exact regWrite_locked v locked (.inl rfl) ▸ recordsFault_raise _ _
    · exact regWrite_locked v locked (.inr rfl) ▸ recordsFault_raise _ _
    · exact arrWrite_txbuf_locked b locked hi ▸ recordsFault_raise _ _
  · intro hidle hsession
    have free := clientLocked_eq_false.2 ⟨hidle, hsession⟩
    exact ⟨fun v => regWrite_budget v free, fun i b hi => ⟨s.link.txbuf.write i b,
      Memory.read_write_same _ _ _, fun _ hk => Memory.read_write_ne _ b hk,
      arrWrite_txbuf_free b free hi⟩⟩

end Sys2Proof.Machine
